-- ==== Sys2Proof/Word.lean ====
section
/-!
DEFINITION. The word types of the block: its 64-bit command and response words (30_encoding R98), and the
carrier of timestamps and durations (00_scope R6, `TS_W` of at most 32 bits by 30_encoding R99).
-/

namespace Sys2Proof

/-- A command or response word of a port, `cw[63:0]` or `rw[63:0]` (30_encoding R99, R101). -/
abbrev Word := BitVec 64

/-- A timestamp or duration in microseconds. The block's width is `TS_W`, at most 32 (R99); it is held in 32 bits,
of which those from bit `TS_W` up are 0 (assumption log 7). -/
abbrev Ts := BitVec 32

/-- A byte of a frame, and a saturating counter. -/
abbrev Byte := BitVec 8

/-- The 16-bit address of a frame. -/
abbrev Addr := BitVec 16

end Sys2Proof
end

