-- ==== Sys2Proof/Config.lean ====
section
/-!
DEFINITION. The configuration record of the block (00_scope R6, 10_state R40) and the free values of the model.
The record stands in State and no operation writes it, so that a statement holds for every configuration.
-/

namespace Sys2Proof

/-- The implementation parameters, one field per row of 00_scope R6. -/
structure Config where
  /-- `TS_W`: width in bits of every timestamp and duration. -/
  tsW : Nat
  /-- `PULSE`: base pulse in microseconds. -/
  pulse : Nat
  /-- `M_LEAD_MARK`, in pulses. -/
  mLeadMark : Nat
  /-- `M_LEAD_SPACE`, in pulses. -/
  mLeadSpace : Nat
  /-- `M_HOLD_SPACE`, in pulses. -/
  mHoldSpace : Nat
  /-- `M_BIT_MARK`, in pulses, shared by 0 and 1 (90_conflicts C1). -/
  mBitMark : Nat
  /-- `M_ZERO_SPACE`, in pulses. -/
  mZeroSpace : Nat
  /-- `M_ONE_SPACE`, in pulses. -/
  mOneSpace : Nat
  /-- `M_TIMEOUT`: inter-frame timeout, in pulses. -/
  mTimeout : Nat
  /-- `TOL_NUM`, numerator of the tolerance. -/
  tolNum : Nat
  /-- `TOL_DEN`, denominator of the tolerance. -/
  tolDen : Nat
  /-- `T_RELEASE`: repeat-cadence timeout of the tracker, in microseconds; OPEN in the spec (D8). -/
  tRelease : Nat
  /-- `FILTER_EN`: the tracker accepts Data frames of one address only. -/
  filterEn : Bool
  /-- `FILTER_ADDR`: the accepted address when `FILTER_EN` = 1. -/
  filterAddr : Addr
deriving DecidableEq, Repr

/-- The default column of 00_scope R6 (assumption log 5). -/
def Config.standard : Config where
  tsW := 32
  pulse := 564
  mLeadMark := 16
  mLeadSpace := 8
  mHoldSpace := 4
  mBitMark := 1
  mZeroSpace := 1
  mOneSpace := 3
  mTimeout := 78
  tolNum := 1
  tolDen := 4
  tRelease := 153992
  filterEn := false
  filterAddr := 0

/-- FREE VALUE (assumption log 2): whether the E port's operation is accepted before the H port's when both
are presented, at the n-th choice. 20_memory R79: "which one is not specified and a model must admit both". -/
opaque Config.edgeFirst : Nat → Bool

/-- FREE VALUE (assumption log 3): whether a presented reset event is taken before a presented operation, at the n-th
choice. 70_reset R280: "an operation is either wholly before it or wholly after it". -/
opaque Config.resetFirst : Nat → Bool

end Sys2Proof
end

