-- ==== Sys2Proof/Syntax.lean ====
section
/-!
DEFINITION. The operations of the block as syntax: one constructor per row of spec/opcode_table.json
(30_encoding R100), with the operands of its format (R99, R102).
-/

namespace Sys2Proof

/-- The two ports (30_encoding R98). -/
inductive Port where
  /-- The E port, which accepts only `EDGE`. -/
  | edge
  /-- The H port, which accepts the `FD_*` and `BT_*` operations. -/
  | host
deriving DecidableEq, Repr

/-- The `kind` operand of `BT_FRAME`, `cw[59:58]` (30_encoding R104); the reserved value 3 is an operand value
of its own, which the tracker treats as `NoProtocol` (R111). -/
inductive KindField where
  | noProtocol
  | dataFrame
  | repeatFrame
  | reserved
deriving DecidableEq, Repr

/-- The operations (30_encoding R100). -/
inductive Instr where
  /-- `ILLEGAL`, R109: a word with opcode 0, or of the other port's opcodes, presented on `port`. -/
  | illegal (port : Port)
  /-- `EDGE isMark, timestamp`, R150. -/
  | edge (isMark : Bool) (timestamp : Ts)
  /-- `FD_AVAIL`, R190. -/
  | fdAvail
  /-- `FD_READ`, R191. -/
  | fdRead
  /-- `FD_TIMEOUT now`, R192. -/
  | fdTimeout (now : Ts)
  /-- `FD_LASTEVT`, R193. -/
  | fdLastEvt
  /-- `BT_FRAME kind, address, command, t`, R201. -/
  | btFrame (kind : KindField) (address : Addr) (command : Byte) (t : Ts)
  /-- `BT_CHKTO now`, R213. -/
  | btChkTo (now : Ts)
  /-- `BT_POLL now`, R215. -/
  | btPoll (now : Ts)
  /-- `BT_CMD`, R216. -/
  | btCmd
  /-- `BT_PRESSCNT`, R217. -/
  | btPressCnt
  /-- `BT_HOLDCNT debounce`, R218. -/
  | btHoldCnt (debounce : Byte)
  /-- `BT_PRESSTO`, R219. -/
  | btPressTo
  /-- `BT_RELEASE`, R220. -/
  | btRelease
  /-- `BT_TOTYPE`, R221. -/
  | btToType
  /-- `BT_RESET`, R222. -/
  | btReset
deriving DecidableEq, Repr

end Sys2Proof
end

