-- ==== Sys2Proof/Machine/State.lean ====
section
/-!
DEFINITION. The state of the block: the 18 registers of 10_state R20 in their three groups, the constant configuration,
and the model's own record of what stands at the ports. Plain data throughout. The enumerations have no constructor for
their reserved encodings, so a state with `st` = 3 or `lf_kind` = 3 cannot be written (assumption log 9).
-/

namespace Sys2Proof.Machine

/-- `st` (10_state R21): `FrameComplete` is never a stored value (90_conflicts C2). -/
inductive DecSt where
  | idle
  | receivingLead
  | receivingData
deriving DecidableEq, Repr

/-- FrameKind (30_encoding R104). -/
inductive FrameKind where
  | noProtocol
  | dataFrame
  | repeatFrame
deriving DecidableEq, Repr

/-- TimeoutType (30_encoding R108). -/
inductive TimeoutType where
  | noTimeout
  | timeout
  | nextButton
  | newButton
deriving DecidableEq, Repr

/-- DecodeState (10_state R21 to R26). -/
structure DecodeState where
  /-- `st`, R21. -/
  st : DecSt
  /-- `half`, R22: false when the mark of a bit is due, true when its space is. -/
  half : Bool
  /-- `bit_index`, R23. -/
  bitIndex : BitVec 5
  /-- `buf`, R24: data bit k is bit 31 - k. -/
  buf : BitVec 32
  /-- `mark_dur`, R25. -/
  markDur : Ts
  /-- `last_edge_time`, R26. -/
  lastEdgeTime : Ts
deriving DecidableEq, Repr

/-- LastDecodedFrame (10_state R28 to R32). -/
structure LastDecodedFrame where
  /-- `lf_kind`, R28. -/
  kind : FrameKind
  /-- `lf_address`, R29. -/
  address : Addr
  /-- `lf_command`, R30. -/
  command : Byte
  /-- `lf_time`, R31. -/
  time : Ts
  /-- `frame_pending`, R32. -/
  pending : Bool
deriving DecidableEq, Repr

/-- ButtonSession (10_state R33 to R39). -/
structure ButtonSession where
  /-- `last_command`, R33. -/
  lastCommand : Byte
  /-- `press_count`, R34. -/
  pressCount : Byte
  /-- `hold_count`, R35. -/
  holdCount : Byte
  /-- `timeout_type`, R36. -/
  timeoutType : TimeoutType
  /-- `last_event_time`, R37. -/
  lastEventTime : Ts
  /-- `rel_flag`, R38. -/
  relFlag : Bool
  /-- `to_flag`, R39. -/
  toFlag : Bool
deriving DecidableEq, Repr

/-- A response: the port it is returned on and its 64-bit word (30_encoding R98, R101). -/
structure Response where
  port : Port
  word : Word
deriving DecidableEq, Repr

/-- What stands at the block's ports. These are the model's fields, not registers of the block
(assumption log 1 to 4): the block buffers nothing, the lists are what the two agents are about to present. -/
structure Interface where
  /-- The command words the edge agent presents, the next one first. -/
  eIn : List Word
  /-- The command words the host agent presents, the next one first. -/
  hIn : List Word
  /-- How many reset events are presented and not yet taken. -/
  rstIn : Nat
  /-- How many inputs have been accepted: the argument of the free values that choose between inputs. -/
  turn : Nat
  /-- The response returned by the latest accepted input; a reset event returns none. -/
  response : Option Response
deriving DecidableEq, Repr

/-- The machine: its 18 registers (10_state R20), its configuration (00_scope R6) and its ports (30_encoding R98). -/
structure State where
  dec : DecodeState
  lf : LastDecodedFrame
  bt : ButtonSession
  cfg : Config
  io : Interface
deriving DecidableEq, Repr

/-- Why a step stops with a fault. There is none: 60_exceptions R256, "no fatal state and no hang"; an `Error` of the
decoder (R250) and an illegal command word (R255) are responses, not stops. -/
inductive Fault
deriving DecidableEq, Repr

/-- Why a step is refused. -/
inductive Refusal where
  /-- An operation of the opcode table whose meaning is not modelled. Raised by no arm of `exec`: every row has its
  meaning. Safe: it allows nothing. -/
  | notModelled (mnemonic : String)
  /-- Raised by `step`: the configuration breaks 00_scope R7 (a) to (d), or its `TS_W` is 0 or above 32
  (assumption log 6).
  "A configuration that breaks (a) to (d) is refused by the model". Safe: no claim holds of such a run. -/
  | illegalConfiguration
deriving DecidableEq, Repr

/-- DecodeState after reset (10_state R45). -/
def DecodeState.reset : DecodeState where
  st := .idle
  half := false
  bitIndex := 0
  buf := 0
  markDur := 0
  lastEdgeTime := 0

/-- LastDecodedFrame after reset (10_state R45). -/
def LastDecodedFrame.reset : LastDecodedFrame where
  kind := .noProtocol
  address := 0
  command := 0
  time := 0
  pending := false

/-- ButtonSession after reset (10_state R45) and after `BT_RESET` (43 R222). -/
def ButtonSession.reset : ButtonSession where
  lastCommand := 0
  pressCount := 0
  holdCount := 0
  timeoutType := .noTimeout
  lastEventTime := 0
  relFlag := false
  toFlag := false

/-- Nothing presented, nothing answered (assumption log 1 to 4). -/
def Interface.reset : Interface where
  eIn := []
  hIn := []
  rstIn := 0
  turn := 0
  response := none

/-- The machine right after reset (10_state R45, 70_reset R280), with the default configuration (00_scope R6). -/
def State.reset : State where
  dec := .reset
  lf := .reset
  bt := .reset
  cfg := .standard
  io := .reset

end Sys2Proof.Machine
end

