-- ==== Sys2Proof/Machine/Flags.lean ====
section
/-!
DEFINITION. The conditions of a session and the one-shot flags (43_button_tracker R200, R209, R214, R219, R220).
-/

namespace Sys2Proof.Machine

/-- `fresh`: no Data frame accepted since reset or `BT_RESET` (R200). -/
def fresh (b : ButtonSession) : Bool := b.pressCount == 0#8

/-- `timed_out`: a release is registered and no Data frame accepted since (R200). -/
def timedOut (b : ButtonSession) : Bool := b.timeoutType == .timeout

/-- `active`: a press is in progress (R200). -/
def active (b : ButtonSession) : Bool := !fresh b && !timedOut b

/-- `unconsumed`: the registered release has not been read by `BT_RELEASE` (R200). -/
def unconsumed (b : ButtonSession) : Bool := timedOut b && b.relFlag

/-- A release transition raises both one-shot flags (10_state R38, R39). -/
def raiseFlags (b : ButtonSession) : ButtonSession := { b with relFlag := true, toFlag := true }

/-- The clearing half of `BT_RELEASE` (R220). -/
def clearRelFlag (b : ButtonSession) : ButtonSession := { b with relFlag := false }

/-- The clearing half of `BT_PRESSTO` (R219). -/
def clearToFlag (b : ButtonSession) : ButtonSession := { b with toFlag := false }

end Sys2Proof.Machine
end

