-- ==== Sys2Proof/WellFormed.lean ====
section
/-!
DEFINITION. When an operation's operands are ones a command word can carry: a time operand is the field
`cw[TS_W-1:0]` (30_encoding R99, R102), so it is below `2^TS_W`. All other operand fields have one width and admit
every value of their type.
-/

namespace Sys2Proof

/-- A time operand that fits the configured timestamp width. -/
def timeFits (c : Config) (t : Ts) : Bool := t.toNat < 2 ^ c.tsW

/-- Every operand of the operation is one its format's field can hold. -/
def Instr.wellFormed (c : Config) : Instr → Bool
  | .illegal _ => true
  | .edge _ timestamp => timeFits c timestamp
  | .fdAvail => true
  | .fdRead => true
  | .fdTimeout now => timeFits c now
  | .fdLastEvt => true
  | .btFrame _ _ _ t => timeFits c t
  | .btChkTo now => timeFits c now
  | .btPoll now => timeFits c now
  | .btCmd => true
  | .btPressCnt => true
  | .btHoldCnt _ => true
  | .btPressTo => true
  | .btRelease => true
  | .btToType => true
  | .btReset => true

end Sys2Proof
end

