-- ==== Sys2Proof/Decode.lean ====
section
/-!
DEFINITION. The decoder of command words (30_encoding R99, R100, R102, R109, R110, R111) and, after it, the encoder,
written from the same tables. The decoder is total: every 64-bit word on either port is an operation, and a word the
port does not accept is the operation `ILLEGAL`. It answers from the opcode field and the port alone, and takes every
operand from its own field, so reserved bits are ignored.
-/

namespace Sys2Proof

/-- `cw[63:60]` (R99). -/
def opcodeOf (cw : Word) : BitVec 4 := cw.extractLsb' 60 4

/-- The `TS_W` low bits of a 32-bit value, the bits above them 0. -/
def truncTs (c : Config) (t : Ts) : Ts := (t.setWidth c.tsW).setWidth 32

/-- The time operand `cw[TS_W-1:0]`, called `timestamp`, `now` or `t` (R102). -/
def timeField (c : Config) (cw : Word) : Ts := truncTs c (cw.extractLsb' 0 32)

/-- `isMark = cw[32]` (R102). -/
def isMarkField (cw : Word) : Bool := cw.getLsbD 32

/-- FrameKind as the operand field encodes it (R104, R111). -/
def KindField.ofBits (b : BitVec 2) : KindField :=
  match b with
  | 0#2 => .noProtocol
  | 1#2 => .dataFrame
  | 2#2 => .repeatFrame
  | _ => .reserved

/-- `kind = cw[59:58]` (R102). -/
def kindField (cw : Word) : KindField := KindField.ofBits (cw.extractLsb' 58 2)

/-- `address = cw[57:42]` (R102). -/
def addressField (cw : Word) : Addr := cw.extractLsb' 42 16

/-- `command = cw[41:34]` (R102). -/
def commandField (cw : Word) : Byte := cw.extractLsb' 34 8

/-- `debounce = cw[7:0]` (R102). -/
def debounceField (cw : Word) : Byte := cw.extractLsb' 0 8

/-- A word on the E port: `EDGE`, or illegal (R109). -/
def decodeEdgePort (c : Config) (cw : Word) : Instr :=
  match opcodeOf cw with
  | 0x1#4 => .edge (isMarkField cw) (timeField c cw)
  | _ => .illegal .edge

/-- A word on the H port: one of the fourteen host operations, or illegal (R109). -/
def decodeHostPort (c : Config) (cw : Word) : Instr :=
  match opcodeOf cw with
  | 0x2#4 => .fdAvail
  | 0x3#4 => .fdRead
  | 0x4#4 => .fdTimeout (timeField c cw)
  | 0x5#4 => .fdLastEvt
  | 0x6#4 => .btFrame (kindField cw) (addressField cw) (commandField cw) (timeField c cw)
  | 0x7#4 => .btChkTo (timeField c cw)
  | 0x8#4 => .btPoll (timeField c cw)
  | 0x9#4 => .btCmd
  | 0xA#4 => .btPressCnt
  | 0xB#4 => .btHoldCnt (debounceField cw)
  | 0xC#4 => .btPressTo
  | 0xD#4 => .btRelease
  | 0xE#4 => .btToType
  | 0xF#4 => .btReset
  | _ => .illegal .host

/-- The operation a command word is when it is presented on a port (R100, R109). -/
def decode (c : Config) (p : Port) (cw : Word) : Instr :=
  match p with
  | .edge => decodeEdgePort c cw
  | .host => decodeHostPort c cw

/-- The port of an opcode (R100): 0x1 belongs to the E port, the others to the H port. Opcode 0 belongs to neither
and is illegal on both; it is put on the H port (assumption log 11). -/
def portOfOpcode (op : BitVec 4) : Port :=
  match op with
  | 0x1#4 => .edge
  | _ => .host

/-- The command word the host hands over as a number: bit 0 is the least significant bit, and bits from `nbits` up
are 0. -/
def tableWord (nbits w : Nat) : Word := BitVec.ofNat 64 (w % 2 ^ nbits)

/-- The operation the decoder reads from a word numbered as spec/opcode_table.json numbers it, on the port of its
opcode, at the default configuration. -/
def decodeTableWord (nbits w : Nat) : Option Instr :=
  if nbits ≤ 64 then
    some (decode Config.standard (portOfOpcode (opcodeOf (tableWord nbits w))) (tableWord nbits w))
  else none

/-! ## The encoder: the canonical word of an operation, all reserved bits 0 (R110). -/

/-- The two bits of a `kind` operand (R104). -/
def KindField.bits : KindField → BitVec 2
  | .noProtocol => 0
  | .dataFrame => 1
  | .repeatFrame => 2
  | .reserved => 3

/-- Format N: the opcode alone. -/
def formatN (op : BitVec 4) : Word := op ++ (0#60)

/-- Format E: `cw[32]` isMark, `cw[31:0]` timestamp. -/
def formatE (op : BitVec 4) (isMark : Bool) (timestamp : Ts) : Word :=
  op ++ (0#27) ++ BitVec.ofBool isMark ++ timestamp

/-- Format T: `cw[31:0]` now. -/
def formatT (op : BitVec 4) (now : Ts) : Word := op ++ (0#28) ++ now

/-- Format F: `cw[59:58]` kind, `cw[57:42]` address, `cw[41:34]` command, `cw[31:0]` t. -/
def formatF (op : BitVec 4) (kind : KindField) (address : Addr) (command : Byte) (t : Ts) : Word :=
  op ++ kind.bits ++ address ++ command ++ (0#2) ++ t

/-- Format D: `cw[7:0]` debounce. -/
def formatD (op : BitVec 4) (debounce : Byte) : Word := op ++ (0#52) ++ debounce

/-- The port and the canonical word of an operation (R99, R100). The canonical illegal word has opcode 0. -/
def encode : Instr → Port × Word
  | .illegal port => (port, formatN 0x0)
  | .edge isMark timestamp => (.edge, formatE 0x1 isMark timestamp)
  | .fdAvail => (.host, formatN 0x2)
  | .fdRead => (.host, formatN 0x3)
  | .fdTimeout now => (.host, formatT 0x4 now)
  | .fdLastEvt => (.host, formatN 0x5)
  | .btFrame kind address command t => (.host, formatF 0x6 kind address command t)
  | .btChkTo now => (.host, formatT 0x7 now)
  | .btPoll now => (.host, formatT 0x8 now)
  | .btCmd => (.host, formatN 0x9)
  | .btPressCnt => (.host, formatN 0xA)
  | .btHoldCnt debounce => (.host, formatD 0xB debounce)
  | .btPressTo => (.host, formatN 0xC)
  | .btRelease => (.host, formatN 0xD)
  | .btToType => (.host, formatN 0xE)
  | .btReset => (.host, formatN 0xF)

end Sys2Proof
end

