-- ==== Sys2Proof/Machine/Operands.lean ====
section
/-!
DEFINITION. The operand values derived inside the block and its integer operations (20_memory R60 to R65,
30_encoding R102): timestamp subtraction, the saturating increment, the buffer's bit and byte accesses, the assembled
frame fields and the complement test.
-/

namespace Sys2Proof.Machine

/-- `a −T b`: subtraction modulo `2^TS_W` (00_scope R9, 20_memory R62). -/
def subTs (c : Config) (a b : Ts) : Ts := truncTs c (a - b)

/-- `sat_inc` (20_memory R64). -/
def satInc (x : Byte) : Byte := if x < 255#8 then x + 1#8 else 255#8

/-- The mask of data bit `k`: bit `31 − k` of the buffer (20_memory R60). -/
def bitMask (k : BitVec 5) : BitVec 32 := 1#32 <<< (31 - k.toNat)

/-- `BufSetBit(k, b)`: `buf[31 − k] <- b`, all other bits unchanged (20_memory R60). -/
def bufSetBit (buf : BitVec 32) (k : BitVec 5) (b : Bool) : BitVec 32 :=
  if b then buf ||| bitMask k else buf &&& ~~~ (bitMask k)

/-- `BufByte(i)` = `buf[31 − 8i : 24 − 8i]` (20_memory R61). -/
def bufByte (buf : BitVec 32) (i : Nat) : Byte := buf.extractLsb' (24 - 8 * i) 8

/-- `address = BufByte(1) ++ BufByte(0)` (20_memory R61). -/
def bufAddress (buf : BitVec 32) : Addr := bufByte buf 1 ++ bufByte buf 0

/-- `command = BufByte(2)` (20_memory R61). -/
def bufCommand (buf : BitVec 32) : Byte := bufByte buf 2

/-- `BufByte(2) ^ BufByte(3) == 0xFF` (20_memory R65). -/
def complementGood (buf : BitVec 32) : Bool := bufByte buf 2 ^^^ bufByte buf 3 == 0xFF#8

/-- The duration of the interval that ends at this edge: `timestamp −T last_edge_time` (41 R151). -/
def durationOf (c : Config) (d : DecodeState) (timestamp : Ts) : Ts := subTs c timestamp d.lastEdgeTime

/-- The elapsed time since the last accepted event: `now −T last_event_time` (43 R214). -/
def elapsedOf (c : Config) (b : ButtonSession) (now : Ts) : Ts := subTs c now b.lastEventTime

/-- The `kind` a stored frame has as an operand of the tracker (43 R215). -/
def FrameKind.field : FrameKind → KindField
  | .noProtocol => .noProtocol
  | .dataFrame => .dataFrame
  | .repeatFrame => .repeatFrame

end Sys2Proof.Machine
end

