-- ==== Sys2Proof/Machine/Responses.lean ====
section
/-!
DEFINITION. The response word (30_encoding R101) and the numeric encodings of the enumerations (R104 to R108).
-/

namespace Sys2Proof.Machine

/-- FrameKind, R104. The value 3 is never produced (R111). -/
def FrameKind.bits : FrameKind → BitVec 2
  | .noProtocol => 0
  | .dataFrame => 1
  | .repeatFrame => 2

/-- `st`, R105. The value 3 is reserved and never stored. -/
def DecSt.bits : DecSt → BitVec 2
  | .idle => 0
  | .receivingLead => 1
  | .receivingData => 2

/-- TimeoutType, R108. -/
def TimeoutType.bits : TimeoutType → BitVec 2
  | .noTimeout => 0
  | .timeout => 1
  | .nextButton => 2
  | .newButton => 3

/-- Why a frame is abandoned (30_encoding R107, 60_exceptions R251). -/
inductive ErrorCause where
  | timing
  | complement
  | order
deriving DecidableEq, Repr

/-- CAUSE, R107. The value 0 stands for a result that is no `Error`. -/
def ErrorCause.bits : ErrorCause → BitVec 2
  | .timing => 1
  | .complement => 2
  | .order => 3

/-- DecodeResult (30_encoding R106). -/
inductive DecodeResult where
  | pending
  | frameReady (kind : FrameKind) (address : Addr) (command : Byte)
  | error (cause : ErrorCause)
deriving DecidableEq, Repr

/-- The fields of a response word (R101); a field an operation does not name is 0. -/
structure Reply where
  ill : Bool := false
  dres : BitVec 2 := 0
  kind : BitVec 2 := 0
  address : Addr := 0
  command : Byte := 0
  cause : BitVec 2 := 0
  value : BitVec 32 := 0
deriving DecidableEq, Repr

/-- The 64-bit response word: ILL 63, DRES 62:61, 0 at 60, KIND 59:58, ADDRESS 57:42, COMMAND 41:34, CAUSE 33:32,
VALUE 31:0 (R101). -/
def Reply.word (r : Reply) : Word :=
  BitVec.ofBool r.ill ++ r.dres ++ (0#1) ++ r.kind ++ r.address ++ r.command ++ r.cause ++ r.value

/-- ILL, `rw[63]`. -/
def illOf (rw : Word) : Bool := rw.getLsbD 63

/-- DRES, `rw[62:61]`. -/
def dresOf (rw : Word) : BitVec 2 := rw.extractLsb' 61 2

/-- KIND, `rw[59:58]`. -/
def kindOf (rw : Word) : BitVec 2 := rw.extractLsb' 58 2

/-- ADDRESS, `rw[57:42]`. -/
def addressOf (rw : Word) : Addr := rw.extractLsb' 42 16

/-- COMMAND, `rw[41:34]`. -/
def commandOf (rw : Word) : Byte := rw.extractLsb' 34 8

/-- CAUSE, `rw[33:32]`. -/
def causeOf (rw : Word) : BitVec 2 := rw.extractLsb' 32 2

/-- VALUE, `rw[31:0]`. -/
def valueOf (rw : Word) : BitVec 32 := rw.extractLsb' 0 32

/-- The response of `EDGE` (R101, R106, R107). -/
def DecodeResult.reply : DecodeResult → Reply
  | .pending => {}
  | .frameReady kind address command => { dres := 1, kind := kind.bits, address := address, command := command }
  | .error cause => { dres := 2, cause := cause.bits }

/-- The response to an illegal command word: ILL = 1, all other bits 0 (R109). -/
def illegalReply : Reply := { ill := true }

/-- A response that carries only VALUE. -/
def valueReply (v : BitVec 32) : Reply := { value := v }

/-- A one-bit VALUE, zero-extended (R101). -/
def flagReply (b : Bool) : Reply := valueReply ((BitVec.ofBool b).setWidth 32)

/-- An 8-bit VALUE, zero-extended (R101). -/
def byteReply (b : Byte) : Reply := valueReply (b.setWidth 32)

/-- The response of `FD_READ` to a claimed frame (42 R191). -/
def frameReply (l : LastDecodedFrame) : Reply :=
  { kind := l.kind.bits, address := l.address, command := l.command, value := l.time }

/-- The snapshot: `last_command` 7:0, `press_count` 15:8, raw `hold_count` 23:16, `timeout_type` 25:24, 0 above
(R101). -/
def snapshot (b : ButtonSession) : BitVec 32 :=
  (0#6) ++ b.timeoutType.bits ++ b.holdCount ++ b.pressCount ++ b.lastCommand

/-- The response of `BT_FRAME`, `BT_CHKTO` and `BT_POLL` (R101). -/
def snapshotReply (b : ButtonSession) : Reply := valueReply (snapshot b)

end Sys2Proof.Machine
end

