-- ==== Sys2Proof/Machine/Ops.lean ====
section
/-!
DEFINITION. The operations several meanings share: writing a group of registers, answering on a port, clearing the decode
state, the decoder's `abort`, claiming a pending frame, and the reset event.
-/

namespace Sys2Proof.Machine

/-- Write DecodeState. -/
def State.setDec (s : State) (d : DecodeState) : State := { s with dec := d }

/-- Write LastDecodedFrame. -/
def State.setLf (s : State) (l : LastDecodedFrame) : State := { s with lf := l }

/-- Write ButtonSession. -/
def State.setBt (s : State) (b : ButtonSession) : State := { s with bt := b }

/-- Write what stands at the ports. -/
def State.setIo (s : State) (q : Interface) : State := { s with io := q }

/-- Return a response word on a port (30_encoding R98, R101). -/
def State.answer (s : State) (p : Port) (r : Reply) : State :=
  s.setIo { s.io with response := some { port := p, word := r.word } }

/-- `clear()` of 41 R163: the decode state returns to the one cleared position; `last_edge_time` is kept. -/
def DecodeState.clear (d : DecodeState) : DecodeState :=
  { d with st := .idle, half := false, bitIndex := 0, buf := 0, markDur := 0 }

/-- What one `EDGE` makes of the decoder's registers, and its result. -/
structure EdgeOutcome where
  dec : DecodeState
  lf : LastDecodedFrame
  result : DecodeResult
deriving DecidableEq, Repr

/-- Continue with no frame and no error. -/
def pendingWith (d : DecodeState) (l : LastDecodedFrame) : EdgeOutcome := { dec := d, lf := l, result := .pending }

/-- `abort(cause)`, the block's only exception entry (60_exceptions R253): the decode state is cleared, everything else is
kept, and the operation answers `Error` with the cause. `d` is the decode state in which step 1 of the operation has
written `last_edge_time` already. There is no return operation and nothing to restore (R254): the next `EDGE` is
processed from `Idle`. -/
def abort (cause : ErrorCause) (d : DecodeState) (l : LastDecodedFrame) : EdgeOutcome :=
  { dec := d.clear, lf := l, result := .error cause }

/-- Claim the pending frame: only `frame_pending` is consumed, the frame stays (42 R191, 10_state R32). -/
def claimFrame (l : LastDecodedFrame) : LastDecodedFrame := { l with pending := false }

/-- The reset event `RST` (70_reset R280): every register takes its value of 10_state R45, the configuration is not
changed, and what the agents present is not touched (assumption log 3). It returns no response. -/
def resetEvent (s : State) : State :=
  { s with
    dec := .reset
    lf := .reset
    bt := .reset
    io := { s.io with response := none } }

end Sys2Proof.Machine
end

