-- ==== Sys2Proof/Machine/Accessors.lean ====
section
/-!
DEFINITION. ButtonTracker's accessors and `BT_RESET` (43_button_tracker R216 to R222).
-/

namespace Sys2Proof.Machine

/-- `BT_CMD` (R216). -/
def execBtCmd (s : State) : Host.Outcome State Fault Refusal :=
  .next (s.answer .host (byteReply s.bt.lastCommand))

/-- `BT_PRESSCNT` (R217). -/
def execBtPressCnt (s : State) : Host.Outcome State Fault Refusal :=
  .next (s.answer .host (byteReply s.bt.pressCount))

/-- The debounced hold count (R218): the raw count above the threshold, else 0. -/
def debouncedHold (b : ButtonSession) (debounce : Byte) : Byte :=
  if debounce < b.holdCount then b.holdCount else 0

/-- `BT_HOLDCNT debounce` (R218). -/
def execBtHoldCnt (debounce : Byte) (s : State) : Host.Outcome State Fault Refusal :=
  .next (s.answer .host (byteReply (debouncedHold s.bt debounce)))

/-- `BT_PRESSTO` (R219): answers the flag and clears it. -/
def execBtPressTo (s : State) : Host.Outcome State Fault Refusal :=
  .next ((s.setBt (clearToFlag s.bt)).answer .host (flagReply s.bt.toFlag))

/-- `BT_RELEASE` (R220): answers the flag and clears it. -/
def execBtRelease (s : State) : Host.Outcome State Fault Refusal :=
  .next ((s.setBt (clearRelFlag s.bt)).answer .host (flagReply s.bt.relFlag))

/-- `BT_TOTYPE` (R221). -/
def execBtToType (s : State) : Host.Outcome State Fault Refusal :=
  .next (s.answer .host (valueReply (s.bt.timeoutType.bits.setWidth 32)))

/-- `BT_RESET` (R222): the whole ButtonSession to its reset values, nothing else. -/
def execBtReset (s : State) : Host.Outcome State Fault Refusal :=
  .next ((s.setBt .reset).answer .host (valueReply 0))

end Sys2Proof.Machine
end

