-- ==== Sys2Proof/Machine/FrameApi.lean ====
section
/-!
DEFINITION. The decoded-frame access operations (42_frame_api R190 to R193), and the answer to an illegal command word
(30_encoding R109, 60_exceptions R255).
-/

namespace Sys2Proof.Machine

/-- `FD_AVAIL` (R190). -/
def execFdAvail (s : State) : Host.Outcome State Fault Refusal :=
  .next (s.answer .host (flagReply s.lf.pending))

/-- What `FD_READ` answers (R191): the pending frame, or the no-protocol frame; VALUE is `lf_time` in both cases. -/
def readReply (l : LastDecodedFrame) : Reply :=
  if l.pending then frameReply l else valueReply l.time

/-- `FD_READ` (R191): one atomic test and clear of `frame_pending`. -/
def execFdRead (s : State) : Host.Outcome State Fault Refusal :=
  .next ((s.setLf (claimFrame s.lf)).answer .host (readReply s.lf))

/-- `FD_TIMEOUT now` (R192). -/
def execFdTimeout (now : Ts) (s : State) : Host.Outcome State Fault Refusal :=
  .next (s.answer .host (valueReply (subTs s.cfg now s.lf.time)))

/-- `FD_LASTEVT` (R193). -/
def execFdLastEvt (s : State) : Host.Outcome State Fault Refusal :=
  .next (s.answer .host (valueReply s.lf.time))

/-- `ILLEGAL` (R109, R255): no register changes; the port it was presented on is answered ILL. -/
def execIllegal (port : Port) (s : State) : Host.Outcome State Fault Refusal :=
  .next (s.answer port illegalReply)

end Sys2Proof.Machine
end

