-- ==== Sys2Proof/Machine/Params.lean ====
section
/-!
DEFINITION. The constants derived from the configuration and the constraints on it (00_scope R6, R7).
-/

namespace Sys2Proof.Machine

/-- `N = M × PULSE`, the nominal duration of a window (40_pulse_classifier R130). -/
def nominal (c : Config) (m : Nat) : Nat := m * c.pulse

/-- `T_LEAD_MARK` (00_scope R6). -/
def tLeadMark (c : Config) : Nat := nominal c c.mLeadMark

/-- `T_FRAME = M_TIMEOUT × PULSE` (00_scope R6). -/
def tFrame (c : Config) : Nat := nominal c c.mTimeout

/-- R7 (a): the tolerance is positive and at most one third. -/
def toleranceLegal (c : Config) : Bool := decide (0 < c.tolNum) && decide (3 * c.tolNum ≤ c.tolDen)

/-- R7 (b): no duration that matches the lead mark exceeds the absolute timeout. -/
def timeoutLegal (c : Config) : Bool :=
  decide ((c.tolDen + c.tolNum) * tLeadMark c ≤ c.tolDen * tFrame c)

/-- R7 (c): both timeouts are below half the timestamp range. -/
def rangeLegal (c : Config) : Bool :=
  decide (tFrame c < 2 ^ (c.tsW - 1)) && decide (c.tRelease < 2 ^ (c.tsW - 1))

/-- R7 (d): every window fits in a timestamp. -/
def windowLegal (c : Config) : Bool :=
  decide ((c.tolDen + c.tolNum) * tLeadMark c < 2 ^ c.tsW * c.tolDen)

/-- A timestamp has at most 32 bits (30_encoding R99) and at least one (DESIGN CHOICE, assumption log 6). -/
def widthLegal (c : Config) : Bool := decide (0 < c.tsW) && decide (c.tsW ≤ 32)

/-- The configurations the model accepts: 00_scope R7 (a) to (d), and a width of 1 to 32 bits
(assumption log 6). -/
def configLegal (c : Config) : Bool :=
  toleranceLegal c && timeoutLegal c && rangeLegal c && windowLegal c && widthLegal c

end Sys2Proof.Machine
end

