-- ==== Sys2Proof/Machine/Classifier.lean ====
section
/-!
DEFINITION. PulseClassifier: pure functions of durations and the configuration (40_pulse_classifier).
-/

namespace Sys2Proof.Machine

/-- `match(d, M)` (R130): `d` lies strictly inside the tolerance band around `M × PULSE`, in unbounded naturals. -/
def inWindow (c : Config) (d : Ts) (m : Nat) : Bool :=
  decide ((c.tolDen - c.tolNum) * nominal c m < c.tolDen * d.toNat) &&
    decide (c.tolDen * d.toNat < (c.tolDen + c.tolNum) * nominal c m)

/-- What a data bit's mark and space say (R133). -/
inductive BitClass where
  | zero
  | one
  | invalid
deriving DecidableEq, Repr

/-- `classifyBit(m, s)` (R133). -/
def classifyBit (c : Config) (mark space : Ts) : BitClass :=
  if inWindow c mark c.mBitMark then
    if inWindow c space c.mZeroSpace then .zero
    else if inWindow c space c.mOneSpace then .one
    else .invalid
  else .invalid

/-- What the space after a lead mark says (R135). -/
inductive LeadClass where
  | dataLead
  | holding
  | neither
deriving DecidableEq, Repr

/-- `classifyLeadSpace(s)` (R135). -/
def classifyLeadSpace (c : Config) (space : Ts) : LeadClass :=
  if inWindow c space c.mLeadSpace then .dataLead
  else if inWindow c space c.mHoldSpace then .holding
  else .neither

end Sys2Proof.Machine
end

