-- ==== Sys2Proof/Machine/FrameDecoder.lean ====
section
/-!
DEFINITION. FrameDecoder: the operation `EDGE`, the listing of 41_frame_decoder R163 taken apart at its state rules.
In each function `d` is the decode state after steps 1 and 2, and `dur` the duration step 1 formed.
-/

namespace Sys2Proof.Machine

/-- R153: a lead mark has ended. -/
def enterLead (d : DecodeState) : DecodeState := { d with st := .receivingLead }

/-- R153: in `Idle` only the end of a lead mark is taken up, every other edge is ignored. -/
def edgeInIdle (c : Config) (isMark : Bool) (dur : Ts) (d : DecodeState) (l : LastDecodedFrame) : EdgeOutcome :=
  if isMark && inWindow c dur c.mLeadMark then pendingWith (enterLead d) l
  else pendingWith d l

/-- R155: enter `ReceivingData` at bit 0 with an empty buffer. -/
def startData (d : DecodeState) : DecodeState :=
  { d with st := .receivingData, half := false, bitIndex := 0, buf := 0, markDur := 0 }

/-- R156: a Repeat frame is stored with its time and made pending; address and command stay. -/
def storeRepeat (timestamp : Ts) (l : LastDecodedFrame) : LastDecodedFrame :=
  { l with kind := .repeatFrame, time := timestamp, pending := true }

/-- R156: the decode state is cleared and the Repeat is reported with the unchanged address and command. -/
def repeatReady (timestamp : Ts) (d : DecodeState) (l : LastDecodedFrame) : EdgeOutcome :=
  { dec := d.clear, lf := storeRepeat timestamp l, result := .frameReady .repeatFrame l.address l.command }

/-- R154 to R157: the edge after a lead mark. -/
def edgeInLead (c : Config) (isMark : Bool) (timestamp dur : Ts) (d : DecodeState) (l : LastDecodedFrame) :
    EdgeOutcome :=
  if isMark then abort .order d l
  else
    match classifyLeadSpace c dur with
    | .dataLead => pendingWith (startData d) l
    | .holding => repeatReady timestamp d l
    | .neither => abort .timing d l

/-- R161: the Data frame the buffer holds, with its completion time, pending. -/
def storeData (timestamp : Ts) (buf : BitVec 32) : LastDecodedFrame :=
  { kind := .dataFrame, address := bufAddress buf, command := bufCommand buf, time := timestamp, pending := true }

/-- R161: the decode state is cleared and the Data frame is reported. -/
def dataReady (timestamp : Ts) (d : DecodeState) : EdgeOutcome :=
  { dec := d.clear, lf := storeData timestamp d.buf,
    result := .frameReady .dataFrame (bufAddress d.buf) (bufCommand d.buf) }

/-- R161, R162: bit 31 is in the buffer of `d`. -/
def completeFrame (timestamp : Ts) (d : DecodeState) (l : LastDecodedFrame) : EdgeOutcome :=
  if complementGood d.buf then dataReady timestamp d else abort .complement d l

/-- R160: the buffer with data bit `bit_index` set to `b`. -/
def putBit (b : Bool) (d : DecodeState) : DecodeState := { d with buf := bufSetBit d.buf d.bitIndex b }

/-- R160: the position after a bit that is not the last. -/
def nextBit (d : DecodeState) : DecodeState :=
  { d with bitIndex := d.bitIndex + 1#5, half := false, markDur := 0 }

/-- R160: a valid bit is appended; after bit 31 the frame is complete in the same operation. -/
def acceptBit (b : Bool) (timestamp : Ts) (d : DecodeState) (l : LastDecodedFrame) : EdgeOutcome :=
  if d.bitIndex < 31#5 then pendingWith (nextBit (putBit b d)) l else completeFrame timestamp (putBit b d) l

/-- R158: the mark of a bit is kept until its space is known; it is not judged yet. -/
def keepMark (dur : Ts) (d : DecodeState) : DecodeState := { d with markDur := dur, half := true }

/-- R158 to R160: an edge inside the data bits. -/
def edgeInData (c : Config) (isMark : Bool) (timestamp dur : Ts) (d : DecodeState) (l : LastDecodedFrame) :
    EdgeOutcome :=
  match d.half, isMark with
  | false, false => abort .order d l
  | false, true => pendingWith (keepMark dur d) l
  | true, true => abort .order d l
  | true, false =>
    match classifyBit c d.markDur dur with
    | .invalid => abort .timing d l
    | .zero => acceptBit false timestamp d l
    | .one => acceptBit true timestamp d l

/-- R152: a duration above `T_FRAME` clears the decode state. -/
def frameTimeout (c : Config) (dur : Ts) (d : DecodeState) : DecodeState :=
  if tFrame c < dur.toNat then d.clear else d

/-- Steps 1 and 2 (R151, R152): `last_edge_time` is written, then the timeout test. -/
def edgePrepare (c : Config) (timestamp : Ts) (d : DecodeState) : DecodeState :=
  frameTimeout c (durationOf c d timestamp) { d with lastEdgeTime := timestamp }

/-- The state rule selected by the value `st` has after step 2 (R150). -/
def edgeDispatch (c : Config) (isMark : Bool) (timestamp dur : Ts) (d : DecodeState) (l : LastDecodedFrame) :
    EdgeOutcome :=
  match d.st with
  | .idle => edgeInIdle c isMark dur d l
  | .receivingLead => edgeInLead c isMark timestamp dur d l
  | .receivingData => edgeInData c isMark timestamp dur d l

/-- The whole of `EDGE` on the decoder's registers (R163). -/
def edgeTransition (c : Config) (isMark : Bool) (timestamp : Ts) (d : DecodeState) (l : LastDecodedFrame) :
    EdgeOutcome :=
  edgeDispatch c isMark timestamp (durationOf c d timestamp) (edgePrepare c timestamp d) l

/-- `EDGE isMark, timestamp` (R150): writes DecodeState and LastDecodedFrame, never ButtonSession (R167). -/
def execEdge (isMark : Bool) (timestamp : Ts) (s : State) : Host.Outcome State Fault Refusal :=
  let o := edgeTransition s.cfg isMark timestamp s.dec s.lf
  .next (((s.setDec o.dec).setLf o.lf).answer .edge o.result.reply)

end Sys2Proof.Machine
end

