-- ==== Sys2Proof/Machine/Tracker.lean ====
section
/-!
DEFINITION. ButtonTracker's transitions: `BT_FRAME` (43_button_tracker R201 to R212), `BT_CHKTO` (R213, R214), `BT_POLL`
(R215).
-/

namespace Sys2Proof.Machine

/-- The writes of a press that starts with a command: R204, R205, R207, and R209 but for its flags. -/
def startPress (b : ButtonSession) (command : Byte) (t : Ts) (how : TimeoutType) : ButtonSession :=
  { b with lastCommand := command, pressCount := 1, holdCount := 0, timeoutType := how, lastEventTime := t }

/-- R206: the same key again after an unconsumed release. -/
def pressAgain (b : ButtonSession) (t : Ts) : ButtonSession :=
  { b with pressCount := satInc b.pressCount, holdCount := 0, timeoutType := .nextButton, lastEventTime := t }

/-- An accepted Data frame: R204 to R209 in the order of the listing R212. -/
def trackData (b : ButtonSession) (command : Byte) (t : Ts) : ButtonSession :=
  if fresh b || (timedOut b && !b.relFlag) then startPress b command t .noTimeout
  else if timedOut b then
    if command = b.lastCommand then pressAgain b t else startPress b command t .newButton
  else if command = b.lastCommand then { b with lastEventTime := t }
  else raiseFlags (startPress b command t .newButton)

/-- A Repeat frame: R210 while a press is active, else R211. -/
def trackRepeat (b : ButtonSession) (t : Ts) : ButtonSession :=
  if active b then { b with holdCount := satInc b.holdCount, lastEventTime := t } else b

/-- The address filter, which looks at Data frames only (R203). -/
def filteredOut (c : Config) (address : Addr) : Bool := c.filterEn && address != c.filterAddr

/-- `BT_FRAME` on ButtonSession (R212); the reserved kind is treated as `NoProtocol` (R202). -/
def trackFrame (c : Config) (b : ButtonSession) (kind : KindField) (address : Addr) (command : Byte) (t : Ts) :
    ButtonSession :=
  match kind with
  | .dataFrame => if filteredOut c address then b else trackData b command t
  | .repeatFrame => trackRepeat b t
  | .noProtocol => b
  | .reserved => b

/-- `BT_CHKTO` on ButtonSession (R214). -/
def checkTimeout (c : Config) (b : ButtonSession) (now : Ts) : ButtonSession :=
  if active b && decide (c.tRelease < (elapsedOf c b now).toNat) then raiseFlags { b with timeoutType := .timeout }
  else b

/-- Write ButtonSession and answer with the snapshot taken after the write (R201, R213, R215). -/
def State.trackTo (s : State) (b : ButtonSession) : State := (s.setBt b).answer .host (snapshotReply b)

/-- `BT_FRAME kind, address, command, t` (R201). -/
def execBtFrame (kind : KindField) (address : Addr) (command : Byte) (t : Ts) (s : State) :
    Host.Outcome State Fault Refusal :=
  .next (s.trackTo (trackFrame s.cfg s.bt kind address command t))

/-- `BT_CHKTO now` (R213). -/
def execBtChkTo (now : Ts) (s : State) : Host.Outcome State Fault Refusal :=
  .next (s.trackTo (checkTimeout s.cfg s.bt now))

/-- `BT_POLL now` (R215): claims a pending frame and applies it with its own time, else checks the timeout. -/
def execBtPoll (now : Ts) (s : State) : Host.Outcome State Fault Refusal :=
  if s.lf.pending then
    .next ((s.setLf (claimFrame s.lf)).trackTo
      (trackFrame s.cfg s.bt s.lf.kind.field s.lf.address s.lf.command s.lf.time))
  else .next (s.trackTo (checkTimeout s.cfg s.bt now))

end Sys2Proof.Machine
end

