-- ==== Sys2Proof/Machine/Dispatch.lean ====
section
/-!
DEFINITION. One arm per operation of the opcode table (30_encoding R100): each calls the operation's own meaning.
-/

namespace Sys2Proof.Machine

def exec (i : Instr) (s : State) : Host.Outcome State Fault Refusal :=
  match i with
  | .illegal port => Sys2Proof.Machine.execIllegal port s
  | .edge isMark timestamp => Sys2Proof.Machine.execEdge isMark timestamp s
  | .fdAvail => Sys2Proof.Machine.execFdAvail s
  | .fdRead => Sys2Proof.Machine.execFdRead s
  | .fdTimeout now => Sys2Proof.Machine.execFdTimeout now s
  | .fdLastEvt => Sys2Proof.Machine.execFdLastEvt s
  | .btFrame kind address command t => Sys2Proof.Machine.execBtFrame kind address command t s
  | .btChkTo now => Sys2Proof.Machine.execBtChkTo now s
  | .btPoll now => Sys2Proof.Machine.execBtPoll now s
  | .btCmd => Sys2Proof.Machine.execBtCmd s
  | .btPressCnt => Sys2Proof.Machine.execBtPressCnt s
  | .btHoldCnt debounce => Sys2Proof.Machine.execBtHoldCnt debounce s
  | .btPressTo => Sys2Proof.Machine.execBtPressTo s
  | .btRelease => Sys2Proof.Machine.execBtRelease s
  | .btToType => Sys2Proof.Machine.execBtToType s
  | .btReset => Sys2Proof.Machine.execBtReset s

end Sys2Proof.Machine
end

