-- ==== Sys2Proof/Machine/Fetch.lean ====
section
/-!
DEFINITION. Which input the block accepts next (20_memory R73, R79; 70_reset R280), and the placing of a command word at
a port for the host.
-/

namespace Sys2Proof.Machine

/-- An input the block accepts: a command word on a port, or the reset event (30_encoding R98). -/
inductive Input where
  | command (p : Port) (cw : Word)
  | rst
deriving DecidableEq, Repr

/-- Accept the head of the E port's words. -/
def takeEdge (q : Interface) (cw : Word) (rest : List Word) : Input × Interface :=
  (.command .edge cw, { q with eIn := rest, turn := q.turn + 1 })

/-- Accept the head of the H port's words. -/
def takeHost (q : Interface) (cw : Word) (rest : List Word) : Input × Interface :=
  (.command .host cw, { q with hIn := rest, turn := q.turn + 1 })

/-- Accept one of the presented reset events, of which `rest` remain. -/
def takeReset (q : Interface) (rest : Nat) : Input × Interface :=
  (.rst, { q with rstIn := rest, turn := q.turn + 1 })

/-- The operation accepted next: within a port in the order presented (20_memory R73), between the ports in an order
that is not specified (R79), decided by a free value. -/
def acceptCommand (q : Interface) : Option (Input × Interface) :=
  match q.eIn, q.hIn with
  | [], [] => none
  | cw :: rest, [] => some (takeEdge q cw rest)
  | [], cw :: rest => some (takeHost q cw rest)
  | ew :: erest, hw :: hrest =>
    if Config.edgeFirst q.turn then some (takeEdge q ew erest) else some (takeHost q hw hrest)

/-- The input accepted next; a reset event is wholly before or wholly after an operation (70_reset R280), in an order a
free value decides. -/
def acceptInput (q : Interface) : Option (Input × Interface) :=
  match q.rstIn with
  | 0 => acceptCommand q
  | rest + 1 =>
    match acceptCommand q with
    | none => some (takeReset q rest)
    | some accepted => if Config.resetFirst q.turn then some (takeReset q rest) else some accepted

/-- A command word presented on its port with nothing competing: no reset event, nothing on the other port. -/
def presentAlone (q : Interface) (p : Port) (cw : Word) : Interface :=
  match p with
  | .edge => { q with eIn := cw :: q.eIn, hIn := [], rstIn := 0 }
  | .host => { q with hIn := cw :: q.hIn, eIn := [], rstIn := 0 }

end Sys2Proof.Machine
end

