-- ==== Sys2Proof/Machine/Perform.lean ====
section
/-!
DEFINITION. What becomes of an input the block has accepted.
-/

namespace Sys2Proof.Machine

/-- Perform an accepted input. `s` is the state in which the input has left its port. -/
def perform (input : Input) (s : State) : Host.Outcome State Fault Refusal :=
  match input with
  | .rst => .next (resetEvent s)
  | .command p cw => exec (decode s.cfg p cw) s

end Sys2Proof.Machine
end

