-- ==== Sys2Proof/Machine/Step.lean ====
section
/-!
DEFINITION. One step of the machine: it accepts one input, and performs it whole (20_memory R73).
-/

namespace Sys2Proof.Machine

/-- One step. With nothing presented the block waits and keeps all state (60_exceptions R265, 70_reset R280). A
configuration that breaks 00_scope R7 (a) to (d), or whose `TS_W` is 0 or above 32, is refused here (assumption log 6). -/
def step (s : State) : Host.Outcome State Fault Refusal :=
  if configLegal s.cfg then
    match acceptInput s.io with
    | none => .next s
    | some (input, io) => perform input (s.setIo io)
  else .refused .illegalConfiguration

/-- `s` with the command word `w`, numbered as spec/opcode_table.json numbers it, presented on the port of its opcode
and nothing competing with it, so that the next step accepts it (assumption log 12). -/
def State.withFetchWord (s : State) (nbits w : Nat) : State :=
  s.setIo (presentAlone s.io (portOfOpcode (opcodeOf (tableWord nbits w))) (tableWord nbits w))

end Sys2Proof.Machine
end

