-- ==== Sys2Proof/Machine/Wire.lean ====
section
/-!
DEFINITION. The wire format outside the block: the shape of a frame (30_encoding R90, R91, R93), the reference encoder
(R94) and the pseudo-operations of test programs (R115). None of it is part of the block; the round trip (41 R166) is
stated in its terms.
-/

namespace Sys2Proof.Machine

/-- One symbol of a frame: whether it is a mark, and its window multiplier (R93). -/
structure Symbol where
  isMark : Bool
  pulses : Nat
deriving DecidableEq, Repr

/-- One interval on the wire: whether it is a mark, and its duration in microseconds (R94). -/
structure Interval where
  isMark : Bool
  dur : Ts
deriving DecidableEq, Repr

/-- The interval of nominal length of a symbol. -/
def Symbol.interval (c : Config) (y : Symbol) : Interval :=
  { isMark := y.isMark, dur := BitVec.ofNat 32 (nominal c y.pulses) }

/-- A data bit: a bit mark and the space that tells 0 from 1 (R90). -/
def bitSymbols (c : Config) (b : Bool) : List Symbol :=
  [{ isMark := true, pulses := c.mBitMark },
   { isMark := false, pulses := if b then c.mOneSpace else c.mZeroSpace }]

/-- `Bits(byte)`: bit 7 first (R94). -/
def byteSymbols (c : Config) (x : Byte) : List Symbol :=
  [7, 6, 5, 4, 3, 2, 1, 0].flatMap fun i => bitSymbols c (x.getLsbD i)

/-- The lead of a Data frame (R90). -/
def leadSymbols (c : Config) : List Symbol :=
  [{ isMark := true, pulses := c.mLeadMark }, { isMark := false, pulses := c.mLeadSpace }]

/-- The mark that ends the last space (R92). -/
def stopSymbol (c : Config) : Symbol := { isMark := true, pulses := c.mBitMark }

/-- A Data frame whose fourth byte is `x`, without its stop mark: 66 symbols (R90). -/
def dataSymbols (c : Config) (address : Addr) (command x : Byte) : List Symbol :=
  leadSymbols c ++ byteSymbols c (address.extractLsb' 0 8) ++ byteSymbols c (address.extractLsb' 8 8) ++
    byteSymbols c command ++ byteSymbols c x

/-- The symbols of `Encode(address, command)`, the stop mark last (R94). -/
def frameSymbols (c : Config) (address : Addr) (command : Byte) : List Symbol :=
  dataSymbols c address command (~~~ command) ++ [stopSymbol c]

/-- The symbols of `EncodeRepeat()`, the stop mark last (R91, R94). -/
def repeatSymbols (c : Config) : List Symbol :=
  [{ isMark := true, pulses := c.mLeadMark }, { isMark := false, pulses := c.mHoldSpace }, stopSymbol c]

/-- `Encode(address, command)` (R94). -/
def encodeFrame (c : Config) (address : Addr) (command : Byte) : List Interval :=
  (frameSymbols c address command).map (Symbol.interval c)

/-- `EncodeRepeat()` (R94). -/
def encodeRepeat (c : Config) : List Interval := (repeatSymbols c).map (Symbol.interval c)

/-- Each interval is of its symbol's kind and inside its symbol's window (41 R166: "any other value within its
window"). -/
def fitsSymbols (c : Config) : List Symbol → List Interval → Bool
  | [], [] => true
  | y :: ys, v :: vs => (v.isMark == y.isMark) && inWindow c v.dur y.pulses && fitsSymbols c ys vs
  | _, _ => false

/-- The time cursor advanced by a duration, modulo `2^TS_W` (R115). -/
def advance (c : Config) (t d : Ts) : Ts := truncTs c (t + d)

/-- The edges that end the intervals of a list, the first of which begins at `t` (R94). -/
def edgesFrom (c : Config) (t : Ts) : List Interval → List (Bool × Ts)
  | [] => []
  | v :: vs => (v.isMark, advance c t v.dur) :: edgesFrom c (advance c t v.dur) vs

/-- When the last interval of a list ends, if the first begins at `t`. -/
def endTime (c : Config) (t : Ts) : List Interval → Ts
  | [] => t
  | v :: vs => endTime c (advance c t v.dur) vs

/-- The edge stream of an interval list that starts at `t0`: `EDGE(0, t0)`, then one edge per interval (R94). -/
def edgeStream (c : Config) (t0 : Ts) (vs : List Interval) : List (Bool × Ts) := (false, t0) :: edgesFrom c t0 vs

/-- The `EDGE` command words of an edge stream. -/
def edgeWords (es : List (Bool × Ts)) : List Word := es.map fun e => (encode (.edge e.1 e.2)).2

/-! ## The pseudo-operations of test programs (R115). -/

/-- The pseudo-operations (R115); the time operands are microseconds. -/
inductive Pseudo where
  | atTime (t : Ts)
  | start (t : Ts)
  | mark (d : Ts)
  | space (d : Ts)
  | lead
  | bit0
  | bit1
  | byte (b : Byte)
  | stop
  | necFrame (address : Addr) (command : Byte)
  | necFrameX (address : Addr) (command x : Byte)
  | necRepeat
deriving DecidableEq, Repr

/-- The intervals a pseudo-operation appends; `AT` and `START` move the cursor and append none. -/
def Pseudo.intervals (c : Config) : Pseudo → List Interval
  | .atTime _ => []
  | .start _ => []
  | .mark d => [{ isMark := true, dur := d }]
  | .space d => [{ isMark := false, dur := d }]
  | .lead => (leadSymbols c).map (Symbol.interval c)
  | .bit0 => (bitSymbols c false).map (Symbol.interval c)
  | .bit1 => (bitSymbols c true).map (Symbol.interval c)
  | .byte b => (byteSymbols c b).map (Symbol.interval c)
  | .stop => [(stopSymbol c).interval c]
  | .necFrame address command => encodeFrame c address command
  | .necFrameX address command x => (dataSymbols c address command x ++ [stopSymbol c]).map (Symbol.interval c)
  | .necRepeat => encodeRepeat c

/-- The cursor after a pseudo-operation, and the edges it expands to (R115). -/
def Pseudo.expand (c : Config) (cursor : Ts) (p : Pseudo) : Ts × List (Bool × Ts) :=
  match p with
  | .atTime t => (t, [])
  | .start t => (t, [(false, t)])
  | _ => (endTime c cursor (p.intervals c), edgesFrom c cursor (p.intervals c))

/-- A list of pseudo-operations expanded in order (R115). -/
def expandAll (c : Config) (cursor : Ts) : List Pseudo → List (Bool × Ts)
  | [] => []
  | p :: ps => (p.expand c cursor).2 ++ expandAll c (p.expand c cursor).1 ps

end Sys2Proof.Machine
end

