-- ==== Sys2Proof/Safety.lean ====
section
/-!
DEFINITION. What claims are stated in: the invariants of the registers (10_state R42 to R44), the contracts on the
environment (20_memory R74, R75), which operations belong to the host, when an operation starts a press, and which bits
of a command word its format names.
-/

namespace Sys2Proof.Machine

/-! ## Invariants. -/

/-- 10_state R42: outside `ReceivingData` the decode state is empty; inside it no bit at or beyond the current position
is set, and the mark duration is 0 while a mark is due. -/
abbrev decoderInv (d : DecodeState) : Prop :=
  (d.st ≠ .receivingData → d.half = false ∧ d.bitIndex = 0 ∧ d.buf = 0 ∧ d.markDur = 0) ∧
  (d.st = .receivingData →
    (∀ i : Nat, i < 32 - d.bitIndex.toNat → d.buf.getLsbD i = false) ∧ (d.half = false → d.markDur = 0))

/-- 10_state R43: a pending frame is a Data or a Repeat frame, and before the first frame all registers are 0. -/
abbrev frameInv (l : LastDecodedFrame) : Prop :=
  (l.pending = true → l.kind = .dataFrame ∨ l.kind = .repeatFrame) ∧
  (l.kind = .noProtocol → l.address = 0 ∧ l.command = 0 ∧ l.time = 0 ∧ l.pending = false)

/-- 10_state R44: before the first press the whole session is in its reset state, and a timeout type other than
`NoTimeout` needs a press. -/
abbrev trackerInv (b : ButtonSession) : Prop :=
  (b.pressCount = 0 →
    b.lastCommand = 0 ∧ b.holdCount = 0 ∧ b.timeoutType = .noTimeout ∧ b.lastEventTime = 0 ∧ b.relFlag = false ∧
      b.toFlag = false) ∧
  (b.timeoutType ≠ .noTimeout → 1 ≤ b.pressCount.toNat)

/-- Every time register fits its width of `TS_W` bits (10_state R25, R26, R31, R37). -/
abbrev widthInv (s : State) : Prop :=
  timeFits s.cfg s.dec.markDur = true ∧ timeFits s.cfg s.dec.lastEdgeTime = true ∧
    timeFits s.cfg s.lf.time = true ∧ timeFits s.cfg s.bt.lastEventTime = true

/-- The invariant of the machine's registers. -/
abbrev State.Inv (s : State) : Prop := decoderInv s.dec ∧ frameInv s.lf ∧ trackerInv s.bt ∧ widthInv s

/-- The legal frame positions `(st, half, bit_index)` (10_state R27). -/
abbrev legalPosition (d : DecodeState) : Prop := d.st ≠ .receivingData → d.half = false ∧ d.bitIndex = 0

/-- The one cleared decode state (41 R165), at a given time of the last edge. -/
def clearedAt (t : Ts) : DecodeState :=
  { st := .idle, half := false, bitIndex := 0, buf := 0, markDur := 0, lastEdgeTime := t }

/-! ## Configurations. -/

/-- The window multipliers of the NEC protocol (00_scope R6), whatever the pulse, the tolerance, the timeout and the
width: those for which 00_scope R7 (a) makes the windows tested at one point disjoint. -/
abbrev necMultipliers (c : Config) : Prop :=
  c.mLeadMark = 16 ∧ c.mLeadSpace = 8 ∧ c.mHoldSpace = 4 ∧ c.mBitMark = 1 ∧ c.mZeroSpace = 1 ∧ c.mOneSpace = 3

/-! ## The environment's contracts (none is checked by the block). -/

/-- The time operand of an operation, if it has one (20_memory R75). -/
def timeOperand : Instr → Option Ts
  | .edge _ timestamp => some timestamp
  | .fdTimeout now => some now
  | .btFrame _ _ _ t => some t
  | .btChkTo now => some now
  | .btPoll now => some now
  | .illegal _ | .fdAvail | .fdRead | .fdLastEvt | .btCmd | .btPressCnt | .btHoldCnt _ | .btPressTo | .btRelease
  | .btToType | .btReset => none

/-- A time that is not earlier than another, up to the wrap: the forward difference is below `2^(TS_W-1)` (R75). -/
def notEarlier (c : Config) (earlier later : Ts) : Bool := (subTs c later earlier).toNat < 2 ^ (c.tsW - 1)

/-- Times that never go back, each compared with the one before it (R75). -/
def timesInOrder (c : Config) : List Ts → Bool
  | [] => true
  | [_] => true
  | t :: u :: rest => notEarlier c t u && timesInOrder c (u :: rest)

/-- The time contract on a sequence of accepted operations (R75). -/
def timeContract (c : Config) (is : List Instr) : Bool := timesInOrder c (is.filterMap timeOperand)

/-- The edge contract: strict chronological order, no duplicate (R74). -/
def edgeContract (c : Config) : List Ts → Bool
  | [] => true
  | [_] => true
  | t :: u :: rest => notEarlier c t u && (u != t) && edgeContract c (u :: rest)

/-! ## Kinds of operations. -/

/-- The fourteen operations of the H port (30_encoding R98, R100). -/
def isHostOp : Instr → Bool
  | .illegal _ | .edge _ _ => false
  | .fdAvail | .fdRead | .fdTimeout _ | .fdLastEvt | .btFrame _ _ _ _ | .btChkTo _ | .btPoll _ | .btCmd | .btPressCnt
  | .btHoldCnt _ | .btPressTo | .btRelease | .btToType | .btReset => true

/-- The operations that may consume the pending frame (10_state R32). -/
def mayClaim : Instr → Bool
  | .fdRead | .btPoll _ => true
  | .illegal _ | .edge _ _ | .fdAvail | .fdTimeout _ | .fdLastEvt | .btFrame _ _ _ _ | .btChkTo _ | .btCmd
  | .btPressCnt | .btHoldCnt _ | .btPressTo | .btRelease | .btToType | .btReset => false

/-- The operations that may write ButtonSession (10_state R20, 20_memory R70). -/
def mayWriteSession : Instr → Bool
  | .btFrame _ _ _ _ | .btChkTo _ | .btPoll _ | .btPressTo | .btRelease | .btReset => true
  | .illegal _ | .edge _ _ | .fdAvail | .fdRead | .fdTimeout _ | .fdLastEvt | .btCmd | .btPressCnt | .btHoldCnt _
  | .btToType => false

/-- A Data frame that the filter lets pass and that is no continuation: it starts a press (43 R204 to R207, R209). -/
def startsPress (c : Config) (b : ButtonSession) (kind : KindField) (address : Addr) (command : Byte) : Bool :=
  (kind == .dataFrame) && !(c.filterEn && address != c.filterAddr) &&
    (b.pressCount == 0 || b.timeoutType == .timeout || command != b.lastCommand)

/-- Whether an operation starts a press in a state: `BT_FRAME` with such a frame, or `BT_POLL` that claims one. -/
def opStartsPress (s : State) : Instr → Bool
  | .btFrame kind address command _ => startsPress s.cfg s.bt kind address command
  | .btPoll _ => s.lf.pending && startsPress s.cfg s.bt s.lf.kind.field s.lf.address s.lf.command
  | .illegal _ | .edge _ _ | .fdAvail | .fdRead | .fdTimeout _ | .fdLastEvt | .btChkTo _ | .btCmd | .btPressCnt
  | .btHoldCnt _ | .btPressTo | .btRelease | .btToType | .btReset => false

/-! ## The bits of a command word that its format names (30_encoding R99). -/

/-- `cw[TS_W-1:0]`. -/
def timeBits (c : Config) : Word := BitVec.ofNat 64 (2 ^ c.tsW - 1)

/-- The named bits of a word with this opcode; all others are reserved (R110). -/
def namedBits (c : Config) (op : BitVec 4) : Word :=
  0xF000000000000000#64 |||
    (match op with
    | 0x1#4 => 0x0000000100000000#64 ||| timeBits c
    | 0x4#4 => timeBits c
    | 0x6#4 => 0x0FFFFFFC00000000#64 ||| timeBits c
    | 0x7#4 => timeBits c
    | 0x8#4 => timeBits c
    | 0xB#4 => 0x00000000000000FF#64
    | _ => 0)

end Sys2Proof.Machine
end

