-- ==== Sys2Proof/Certificates/Slice0/Obligations.lean ====
section
/-!
DEFINITION. The statements about the model, each `def Obligations.<Name> : Prop`. They hold for every configuration unless
they say otherwise: the configuration stands in State. A response is given as `Reply` fields; `ResponseWordLayout` says
where each field stands in the 64-bit word. "The model's fields" are those of `State.io` (assumption log 1 to 4).
-/

open Sys2Proof Sys2Proof.Machine

/-! ## Command and response words. -/

/-- 30_encoding R99, R100, R102: every operation whose operands its format can hold is read back, with every operand, from
its canonical word on its port. -/
def Obligations.DecodeReadsBackEveryOperation : Prop :=
  ∀ (c : Config) (i : Instr), i.wellFormed c = true → decode c (encode i).1 (encode i).2 = i

/-- 30_encoding R110: two command words that differ only in bits their format does not name are the same operation, and the
canonical encoding has all those bits 0. -/
def Obligations.ReservedBitsAreIgnored : Prop :=
  (∀ (c : Config) (p : Port) (w w' : Word), c.tsW ≤ 32 →
    w &&& namedBits c (opcodeOf w) = w' &&& namedBits c (opcodeOf w) → decode c p w = decode c p w') ∧
  (∀ (c : Config) (i : Instr), c.tsW ≤ 32 → i.wellFormed c = true →
    (encode i).2 &&& namedBits c (opcodeOf (encode i).2) = (encode i).2)

/-- 30_encoding R102: a decoded operation's time operand is below `2^TS_W`, whatever the word. -/
def Obligations.DecodedOperandsFitTheirFields : Prop :=
  ∀ (c : Config) (p : Port) (w : Word), (decode c p w).wellFormed c = true

/-- 30_encoding R109, 60_exceptions R255: a word is illegal exactly when its opcode is 0 or belongs to the other port; it
changes no register and is answered with bit 63 alone on the port it was presented on. -/
def Obligations.IllegalWordsChangeNothing : Prop :=
  (∀ (c : Config) (p q : Port) (w : Word),
    decode c p w = .illegal q ↔
      q = p ∧ (opcodeOf w = 0 ∨ (p = .host ∧ opcodeOf w = 1) ∨ (p = .edge ∧ opcodeOf w ≠ 1))) ∧
  (∀ (p : Port) (s : State),
    exec (.illegal p) s =
      .next { s with io := { s.io with response := some { port := p, word := 0x8000000000000000#64 } } })

/-- The words of 95_test_vectors ED2, FD6, BT10, BT48, IL3 and IL4, each read as the operation it stands for there. -/
def Obligations.VectorWordsDecode : Prop :=
  decode .standard .edge 0x1000000100002728#64 = .edge true 10024 ∧
  decode .standard .host 0x400000000010C8E0#64 = .fdTimeout 1100000 ∧
  decode .standard .host 0x6BFFFFFC00035B60#64 = .btFrame .repeatFrame 0xFFFF 0xFF 220000 ∧
  decode .standard .host 0xBFFFFFFFFFFFFF01#64 = .btHoldCnt 1 ∧
  decode .standard .host 0x10000001000038C8#64 = .illegal .host ∧
  decode .standard .edge 0x9000000000000000#64 = .illegal .edge

/-- 30_encoding R101: where each field of a response stands; bit 60 is always 0. -/
def Obligations.ResponseWordLayout : Prop :=
  ∀ r : Reply,
    r.word.getLsbD 63 = r.ill ∧ r.word.extractLsb' 61 2 = r.dres ∧ r.word.getLsbD 60 = false ∧
    r.word.extractLsb' 58 2 = r.kind ∧ r.word.extractLsb' 42 16 = r.address ∧ r.word.extractLsb' 34 8 = r.command ∧
    r.word.extractLsb' 32 2 = r.cause ∧ r.word.extractLsb' 0 32 = r.value

/-- 30_encoding R101, R106, R107, R111: no response carries DRES = 3 or KIND = 3, `st` is never 3, `kind` = 3 is treated as
`NoProtocol`, with no state change; and DRES and CAUSE are 0 on the H port, CAUSE is not 0 exactly for an `Error`. -/
def Obligations.ReservedValuesAreNeverProduced : Prop :=
  (∀ (i : Instr) (s : State), ∃ (u : State) (p : Port) (w : Word),
    exec i s = .next u ∧ u.io.response = some { port := p, word := w } ∧ dresOf w ≠ 3 ∧ kindOf w ≠ 3 ∧
    u.dec.st.bits ≠ 3 ∧ u.lf.kind.bits ≠ 3 ∧ (causeOf w ≠ 0 ↔ dresOf w = 2) ∧
    (isHostOp i = true → p = .host ∧ dresOf w = 0) ∧ (illOf w = true ↔ i = .illegal p)) ∧
  (∀ (a : Addr) (x : Byte) (t : Ts) (s : State),
    exec (.btFrame .reserved a x t) s = exec (.btFrame .noProtocol a x t) s ∧
    exec (.btFrame .reserved a x t) s = .next (s.answer .host { value := snapshot s.bt }))

/-! ## Steps, ports and reset. -/

/-- 20_memory R73, 30_encoding R98: with one port presenting a word and no reset event, a step is the decoded operation's
`exec` in the state in which the word has left its port; with nothing presented the block keeps all state. `turn` is a
field of the model (assumption log 2), and that a step with nothing presented is a next state is the model's choice (log 8). -/
def Obligations.StepPerformsTheDecodedOperation : Prop :=
  ∀ s : State, configLegal s.cfg = true → s.io.rstIn = 0 →
    (∀ w rest, s.io.eIn = w :: rest → s.io.hIn = [] →
      step s = exec (decode s.cfg .edge w) { s with io := { s.io with eIn := rest, turn := s.io.turn + 1 } }) ∧
    (∀ w rest, s.io.hIn = w :: rest → s.io.eIn = [] →
      step s = exec (decode s.cfg .host w) { s with io := { s.io with hIn := rest, turn := s.io.turn + 1 } }) ∧
    (s.io.eIn = [] → s.io.hIn = [] → step s = .next s)

/-- 20_memory R79: with a word on each port, the step accepts one of the two, and the other keeps waiting; which one is a
free value, so a claim must hold for both. -/
def Obligations.SimultaneousWordsAreTakenInEitherOrder : Prop :=
  ∀ (s : State) (ew hw : Word) (es hs : List Word), configLegal s.cfg = true → s.io.rstIn = 0 →
    s.io.eIn = ew :: es → s.io.hIn = hw :: hs →
    step s = exec (decode s.cfg .edge ew) { s with io := { s.io with eIn := es, turn := s.io.turn + 1 } } ∨
    step s = exec (decode s.cfg .host hw) { s with io := { s.io with hIn := hs, turn := s.io.turn + 1 } }

/-- 20_memory R79: an `EDGE` and a host operation give the same DecodeState, frame data, configuration and edge response
in both orders; and when that `EDGE` stores no frame, the whole of LastDecodedFrame, ButtonSession and the host's
response agree as well. When it stores a frame, the statement leaves `frame_pending`, ButtonSession and the host's response
free, for the host operations that read no frame register too. -/
def Obligations.EdgeAndHostOrdersDifferOnlyInFrameVisibility : Prop :=
  ∀ (m : Bool) (t : Ts) (i : Instr) (s : State), isHostOp i = true →
    ∃ e h eh he : State,
      exec (.edge m t) s = .next e ∧ exec i s = .next h ∧ exec i e = .next eh ∧ exec (.edge m t) h = .next he ∧
      eh.dec = he.dec ∧ eh.lf.kind = he.lf.kind ∧ eh.lf.address = he.lf.address ∧ eh.lf.command = he.lf.command ∧
      eh.lf.time = he.lf.time ∧ eh.cfg = he.cfg ∧ he.io.response = e.io.response ∧
      (∀ w : Word, e.io.response = some { port := .edge, word := w } → dresOf w ≠ 1 →
        eh.lf = he.lf ∧ eh.bt = he.bt ∧ eh.io.response = h.io.response)

/-- 10_state R45, 70_reset R280: the reset event, taken in any state, leaves every register at its value of the table and
does not change the configuration. -/
def Obligations.ResetEventRestoresTheTable : Prop :=
  ∀ s : State, ∃ u : State, perform .rst s = .next u ∧
    u.dec.st = .idle ∧ u.dec.half = false ∧ u.dec.bitIndex = 0 ∧ u.dec.buf = 0 ∧ u.dec.markDur = 0 ∧
    u.dec.lastEdgeTime = 0 ∧ u.lf.kind = .noProtocol ∧ u.lf.address = 0 ∧ u.lf.command = 0 ∧ u.lf.time = 0 ∧
    u.lf.pending = false ∧ u.bt.lastCommand = 0 ∧ u.bt.pressCount = 0 ∧ u.bt.holdCount = 0 ∧
    u.bt.timeoutType = .noTimeout ∧ u.bt.lastEventTime = 0 ∧ u.bt.relFlag = false ∧ u.bt.toFlag = false ∧
    u.cfg = s.cfg ∧ u.dec = State.reset.dec ∧ u.lf = State.reset.lf ∧ u.bt = State.reset.bt

/-- 70_reset R280: a presented reset event is wholly before or wholly after a presented operation, and is taken at once
when no operation is presented. That a word keeps waiting behind a reset event is the model's reading (assumption log 3). -/
def Obligations.ResetIsWhollyBeforeOrAfterAnOperation : Prop :=
  ∀ (s : State) (n : Nat), configLegal s.cfg = true → s.io.rstIn = n + 1 →
    (s.io.eIn = [] → s.io.hIn = [] →
      step s = perform .rst { s with io := { s.io with rstIn := n, turn := s.io.turn + 1 } }) ∧
    (∀ w rest, s.io.eIn = w :: rest → s.io.hIn = [] →
      step s = perform .rst { s with io := { s.io with rstIn := n, turn := s.io.turn + 1 } } ∨
      step s = exec (decode s.cfg .edge w) { s with io := { s.io with eIn := rest, turn := s.io.turn + 1 } }) ∧
    (∀ w rest, s.io.hIn = w :: rest → s.io.eIn = [] →
      step s = perform .rst { s with io := { s.io with rstIn := n, turn := s.io.turn + 1 } } ∨
      step s = exec (decode s.cfg .host w) { s with io := { s.io with hIn := rest, turn := s.io.turn + 1 } }) ∧
    (∀ ew erest hw hrest, s.io.eIn = ew :: erest → s.io.hIn = hw :: hrest →
      step s = perform .rst { s with io := { s.io with rstIn := n, turn := s.io.turn + 1 } } ∨
      step s = exec (decode s.cfg .edge ew) { s with io := { s.io with eIn := erest, turn := s.io.turn + 1 } } ∨
      step s = exec (decode s.cfg .host hw) { s with io := { s.io with hIn := hrest, turn := s.io.turn + 1 } })

/-- 60_exceptions R256: no operation and, in a legal configuration, no step ever stops. -/
def Obligations.NoOperationStopsTheBlock : Prop :=
  (∀ (i : Instr) (s : State), ∃ u, exec i s = .next u) ∧
  (∀ s : State, configLegal s.cfg = true → ∃ u, step s = .next u)

/-- A step is refused exactly in a configuration that breaks 00_scope R7 (a) to (d), or whose `TS_W` is 0 or above 32. That
the model refuses (a) to (d) is R7's; that `step` is where it refuses, and that it refuses a `TS_W` outside 1 to 32 (30_encoding
R99 says only "at most 32"), are the model's choices (assumption log 6). -/
def Obligations.IllegalConfigurationsAreRefused : Prop :=
  ∀ s : State, step s = .refused .illegalConfiguration ↔
    ¬ (0 < s.cfg.tolNum ∧ 3 * s.cfg.tolNum ≤ s.cfg.tolDen ∧
      (s.cfg.tolDen + s.cfg.tolNum) * (s.cfg.mLeadMark * s.cfg.pulse) ≤
        s.cfg.tolDen * (s.cfg.mTimeout * s.cfg.pulse) ∧
      s.cfg.mTimeout * s.cfg.pulse < 2 ^ (s.cfg.tsW - 1) ∧ s.cfg.tRelease < 2 ^ (s.cfg.tsW - 1) ∧
      (s.cfg.tolDen + s.cfg.tolNum) * (s.cfg.mLeadMark * s.cfg.pulse) < 2 ^ s.cfg.tsW * s.cfg.tolDen ∧
      0 < s.cfg.tsW ∧ s.cfg.tsW ≤ 32)

/-- 00_scope R6, 10_state R40: no step and no operation writes the configuration. -/
def Obligations.ConfigurationNeverChanges : Prop :=
  (∀ (i : Instr) (s u : State), exec i s = .next u → u.cfg = s.cfg) ∧
  (∀ s u : State, step s = .next u → u.cfg = s.cfg)

/-! ## The pulse classifier. -/

/-- 40_pulse_classifier R130, R131: the window test in unbounded naturals; a duration of 0 never matches and the nominal
duration of a legal configuration always does; and the accepted sets of the table at the default parameters. -/
def Obligations.WindowTestIsExact : Prop :=
  (∀ (c : Config) (d : Ts) (m : Nat), inWindow c d m = true ↔
    (c.tolDen - c.tolNum) * (m * c.pulse) < c.tolDen * d.toNat ∧
    c.tolDen * d.toNat < (c.tolDen + c.tolNum) * (m * c.pulse)) ∧
  (∀ (c : Config) (m : Nat), inWindow c 0 m = false) ∧
  (∀ (c : Config) (d : Ts) (m : Nat), configLegal c = true → d.toNat = m * c.pulse → 0 < d.toNat →
    inWindow c d m = true) ∧
  (∀ d : Ts,
    (inWindow .standard d 16 = true ↔ 6769 ≤ d.toNat ∧ d.toNat ≤ 11279) ∧
    (inWindow .standard d 8 = true ↔ 3385 ≤ d.toNat ∧ d.toNat ≤ 5639) ∧
    (inWindow .standard d 4 = true ↔ 1693 ≤ d.toNat ∧ d.toNat ≤ 2819) ∧
    (inWindow .standard d 1 = true ↔ 424 ≤ d.toNat ∧ d.toNat ≤ 704) ∧
    (inWindow .standard d 3 = true ↔ 1270 ≤ d.toNat ∧ d.toNat ≤ 2114))

/-- 40_pulse_classifier R133, R135, 00_scope R7 (a), (b): with the NEC multipliers, in every legal configuration, each class
is named by its windows alone, so the order of the tests cannot matter, and no window reaches beyond `T_FRAME`. -/
def Obligations.ClassesAreNamedByTheirWindows : Prop :=
  ∀ (c : Config), configLegal c = true → necMultipliers c →
    (∀ m s : Ts,
      (classifyBit c m s = .zero ↔ inWindow c m c.mBitMark = true ∧ inWindow c s c.mZeroSpace = true) ∧
      (classifyBit c m s = .one ↔ inWindow c m c.mBitMark = true ∧ inWindow c s c.mOneSpace = true) ∧
      (classifyBit c m s = .invalid ↔ inWindow c m c.mBitMark = false ∨
        (inWindow c s c.mZeroSpace = false ∧ inWindow c s c.mOneSpace = false))) ∧
    (∀ s : Ts,
      (classifyLeadSpace c s = .dataLead ↔ inWindow c s c.mLeadSpace = true) ∧
      (classifyLeadSpace c s = .holding ↔ inWindow c s c.mHoldSpace = true) ∧
      (classifyLeadSpace c s = .neither ↔ inWindow c s c.mLeadSpace = false ∧ inWindow c s c.mHoldSpace = false)) ∧
    (∀ (d : Ts) (m : Nat), m ∈ [c.mLeadMark, c.mLeadSpace, c.mHoldSpace, c.mBitMark, c.mZeroSpace, c.mOneSpace] →
      inWindow c d m = true → d.toNat ≤ tFrame c)

/-! ## The block's integer operations. -/

/-- 20_memory R62: subtraction of timestamps is modulo `2^TS_W`; a forward difference below `2^TS_W` is recovered across a
wrap; and a time that lies before the other by less than half the range gives a difference above `T_FRAME`. -/
def Obligations.TimestampDifferenceIsModular : Prop :=
  (∀ c : Config, c.tsW ≤ 32 → ∀ a b : Ts, timeFits c a = true → timeFits c b = true →
    (subTs c a b).toNat = (2 ^ c.tsW + a.toNat - b.toNat) % 2 ^ c.tsW ∧
    subTs c (advance c b a) b = a) ∧
  (∀ c : Config, configLegal c = true → ∀ a d : Ts, timeFits c a = true → 0 < d.toNat → d.toNat < 2 ^ (c.tsW - 1) →
    tFrame c < (subTs c a (advance c a d)).toNat)

/-- 20_memory R60, R61, R67: `BufSetBit` writes bit `31 - k` and no other; data bit `k` is bit `7 - k mod 8` of byte
`k div 8`; and on a bit that is 0 it is the or of the buffer with the shifted bit. -/
def Obligations.BufferBitsAndBytes : Prop :=
  (∀ (buf : BitVec 32) (k : BitVec 5) (b : Bool) (i : Nat),
    (bufSetBit buf k b).getLsbD i = if i = 31 - k.toNat then b else buf.getLsbD i) ∧
  (∀ (buf : BitVec 32) (i j : Nat), i < 4 → j < 8 → (bufByte buf i).getLsbD j = buf.getLsbD (24 - 8 * i + j)) ∧
  (∀ (buf : BitVec 32) (k : BitVec 5) (b : Bool),
    (bufByte (bufSetBit buf k b) (k.toNat / 8)).getLsbD (7 - k.toNat % 8) = b) ∧
  (∀ (buf : BitVec 32) (k : BitVec 5) (b : Bool), buf.getLsbD (31 - k.toNat) = false →
    bufSetBit buf k b = buf ||| ((BitVec.ofBool b).setWidth 32 <<< (31 - k.toNat)))

/-- 20_memory R61, R65, 00_scope R9: frame assembly, the complement test, and the saturating increment. -/
def Obligations.FrameAssemblyAndSaturation : Prop :=
  (∀ a x : Byte, ∀ y z : Byte, bufAddress (a ++ x ++ y ++ z) = x ++ a ∧ bufCommand (a ++ x ++ y ++ z) = y ∧
    (complementGood (a ++ x ++ y ++ z) = true ↔ z = ~~~ y)) ∧
  (∀ x : Byte, (satInc x).toNat = min (x.toNat + 1) 255)

/-! ## EDGE. -/

/-- 41_frame_decoder R152: a duration strictly above `T_FRAME` clears the decode state whatever it was, reports no error,
and leaves the block in `Idle`. -/
def Obligations.EdgeAfterFrameTimeout : Prop :=
  ∀ (m : Bool) (t : Ts) (s : State), configLegal s.cfg = true →
    s.cfg.mTimeout * s.cfg.pulse < (durationOf s.cfg s.dec t).toNat →
    exec (.edge m t) s = .next (State.answer { s with dec := clearedAt t } .edge {})

/-- 41_frame_decoder R151, R153: in `Idle`, within the timeout, only a mark that matches the lead mark is taken up; every
edge writes `last_edge_time`, and both answers are `Pending`. -/
def Obligations.EdgeInIdle : Prop :=
  ∀ (m : Bool) (t : Ts) (s : State), (durationOf s.cfg s.dec t).toNat ≤ s.cfg.mTimeout * s.cfg.pulse →
    s.dec.st = .idle →
    (m = true → inWindow s.cfg (durationOf s.cfg s.dec t) s.cfg.mLeadMark = true →
      exec (.edge m t) s =
        .next (State.answer { s with dec := { s.dec with st := .receivingLead, lastEdgeTime := t } } .edge {})) ∧
    (m = false ∨ inWindow s.cfg (durationOf s.cfg s.dec t) s.cfg.mLeadMark = false →
      exec (.edge m t) s = .next (State.answer { s with dec := { s.dec with lastEdgeTime := t } } .edge {}))

/-- 41_frame_decoder R154 to R157: the four outcomes of the edge after a lead mark. -/
def Obligations.EdgeAfterLeadMark : Prop :=
  ∀ (t : Ts) (s : State), (durationOf s.cfg s.dec t).toNat ≤ s.cfg.mTimeout * s.cfg.pulse →
    s.dec.st = .receivingLead →
    exec (.edge true t) s =
      .next (State.answer { s with dec := clearedAt t } .edge { dres := 2, cause := 3 }) ∧
    (classifyLeadSpace s.cfg (durationOf s.cfg s.dec t) = .dataLead →
      exec (.edge false t) s = .next (State.answer { s with dec := { clearedAt t with st := .receivingData } } .edge {})) ∧
    (classifyLeadSpace s.cfg (durationOf s.cfg s.dec t) = .holding →
      exec (.edge false t) s = .next (State.answer
        { s with dec := clearedAt t, lf := { s.lf with kind := .repeatFrame, time := t, pending := true } } .edge
        { dres := 1, kind := 2, address := s.lf.address, command := s.lf.command })) ∧
    (classifyLeadSpace s.cfg (durationOf s.cfg s.dec t) = .neither →
      exec (.edge false t) s =
        .next (State.answer { s with dec := clearedAt t } .edge { dres := 2, cause := 1 }))

/-- 41_frame_decoder R158, R159: where a bit's mark is due, a mark is kept unjudged and a space aborts with `ORDER`; where
its space is due, a mark aborts with `ORDER`. -/
def Obligations.EdgeOrderInsideBits : Prop :=
  ∀ (t : Ts) (s : State), (durationOf s.cfg s.dec t).toNat ≤ s.cfg.mTimeout * s.cfg.pulse →
    s.dec.st = .receivingData →
    (s.dec.half = false →
      exec (.edge false t) s =
        .next (State.answer { s with dec := clearedAt t } .edge { dres := 2, cause := 3 }) ∧
      exec (.edge true t) s = .next (State.answer
        { s with dec := { s.dec with markDur := durationOf s.cfg s.dec t, half := true, lastEdgeTime := t } } .edge {})) ∧
    (s.dec.half = true →
      exec (.edge true t) s =
        .next (State.answer { s with dec := clearedAt t } .edge { dres := 2, cause := 3 }))

/-- 41_frame_decoder R160 to R162: the space of a bit. An invalid pair aborts with `TIMING`; a valid one appends its bit;
with bit 31 the frame is stored if the complement is good, else the frame aborts with `COMPLEMENT`. -/
def Obligations.EdgeAtBitSpace : Prop :=
  ∀ (t : Ts) (s : State), (durationOf s.cfg s.dec t).toNat ≤ s.cfg.mTimeout * s.cfg.pulse →
    s.dec.st = .receivingData → s.dec.half = true →
    (classifyBit s.cfg s.dec.markDur (durationOf s.cfg s.dec t) = .invalid →
      exec (.edge false t) s =
        .next (State.answer { s with dec := clearedAt t } .edge { dres := 2, cause := 1 })) ∧
    (∀ b : Bool,
      classifyBit s.cfg s.dec.markDur (durationOf s.cfg s.dec t) = (if b then .one else .zero) →
      (s.dec.bitIndex.toNat < 31 →
        exec (.edge false t) s = .next (State.answer
          { s with dec := { s.dec with
              buf := bufSetBit s.dec.buf s.dec.bitIndex b, bitIndex := s.dec.bitIndex + 1, half := false, markDur := 0,
              lastEdgeTime := t } } .edge {})) ∧
      (s.dec.bitIndex.toNat = 31 →
        (bufByte (bufSetBit s.dec.buf 31 b) 2 ^^^ bufByte (bufSetBit s.dec.buf 31 b) 3 = 0xFF →
          exec (.edge false t) s = .next (State.answer
            { s with
              dec := clearedAt t
              lf :=
                { kind := .dataFrame
                  address := bufByte (bufSetBit s.dec.buf 31 b) 1 ++ bufByte (bufSetBit s.dec.buf 31 b) 0
                  command := bufByte (bufSetBit s.dec.buf 31 b) 2
                  time := t
                  pending := true } } .edge
            { dres := 1, kind := 1,
              address := bufByte (bufSetBit s.dec.buf 31 b) 1 ++ bufByte (bufSetBit s.dec.buf 31 b) 0,
              command := bufByte (bufSetBit s.dec.buf 31 b) 2 })) ∧
        (bufByte (bufSetBit s.dec.buf 31 b) 2 ^^^ bufByte (bufSetBit s.dec.buf 31 b) 3 ≠ 0xFF →
          exec (.edge false t) s =
            .next (State.answer { s with dec := clearedAt t } .edge { dres := 2, cause := 2 }))))

/-- 41_frame_decoder R150, R151, R167: whatever the state and the operands, `EDGE` completes, writes `last_edge_time`,
answers on the E port, never touches ButtonSession, never clears `frame_pending`, never sets `lf_kind` to `NoProtocol`,
and keeps what the agents are about to present. -/
def Obligations.EdgeFrame : Prop :=
  ∀ (m : Bool) (t : Ts) (s : State), ∃ u : State, exec (.edge m t) s = .next u ∧
    u.dec.lastEdgeTime = t ∧ u.bt = s.bt ∧ u.cfg = s.cfg ∧ (s.lf.pending = true → u.lf.pending = true) ∧
    (u.lf.kind = .noProtocol → u.lf = s.lf) ∧ (∃ w, u.io.response = some { port := .edge, word := w } ∧
      (dresOf w ≠ 1 → u.lf = s.lf)) ∧
    u.io.eIn = s.io.eIn ∧ u.io.hIn = s.io.hIn ∧ u.io.rstIn = s.io.rstIn ∧ u.io.turn = s.io.turn

/-- 60_exceptions R253, R254: an edge that answers `Error` leaves the cleared decode state with `last_edge_time` updated, and
nothing else is changed; and from `Idle` no `Error` is raised at all. -/
def Obligations.AbortClearsOnlyTheDecodeState : Prop :=
  ∀ (m : Bool) (t : Ts) (s : State), ∃ (u : State) (w : Word), exec (.edge m t) s = .next u ∧
    u.io.response = some { port := .edge, word := w } ∧
    (dresOf w = 2 → s.dec.st ≠ .idle ∧ u.dec = clearedAt t ∧ u.lf = s.lf ∧ u.bt = s.bt ∧ u.cfg = s.cfg ∧
      (causeOf w = 1 ∨ causeOf w = 2 ∨ causeOf w = 3))

/-- 41_frame_decoder R150, R167: two states that agree on DecodeState and the frame data, and whose configurations agree but
for `FILTER_EN`, `FILTER_ADDR` and `T_RELEASE`, give the same DecodeState, frame data and response, whatever their
ButtonSession and `frame_pending` hold. -/
def Obligations.EdgeIgnoresSessionFilterAndRelease : Prop :=
  ∀ (m : Bool) (t : Ts) (s : State) (b : ButtonSession) (pending fe : Bool) (fa : Addr) (tr : Nat),
    ∃ u v : State, exec (.edge m t) s = .next u ∧
      exec (.edge m t)
        { s with
          bt := b
          lf := { s.lf with pending := pending }
          cfg := { s.cfg with filterEn := fe, filterAddr := fa, tRelease := tr } } = .next v ∧
      u.dec = v.dec ∧ u.lf.kind = v.lf.kind ∧ u.lf.address = v.lf.address ∧ u.lf.command = v.lf.command ∧
      u.lf.time = v.lf.time ∧ u.io.response = v.io.response ∧ v.bt = b

/-- 41_frame_decoder R165, R166: for every legal configuration with the NEC multipliers, every address and command, and every
choice of the 67 intervals inside their windows, a decoder that is in `Idle`, or anywhere else if the gap before the frame
exceeds `T_FRAME`, answers `Pending` to edges 1 to 66, `FrameReady(Data, address, command)` to edge 67 and `Pending` to
edge 68, and holds the frame with the time of edge 67, pending. The edges are the words the E port presents, and nothing
else is presented. -/
def Obligations.EveryWellFormedDataFrameIsDecoded : Prop :=
  ∀ (s : State) (a : Addr) (x : Byte) (t0 : Ts) (vs : List Interval),
    configLegal s.cfg = true → necMultipliers s.cfg → timeFits s.cfg t0 = true →
    (s.dec.st = .idle ∨ tFrame s.cfg < (durationOf s.cfg s.dec t0).toNat) →
    fitsSymbols s.cfg (frameSymbols s.cfg a x) vs = true →
    s.io.eIn = edgeWords (edgeStream s.cfg t0 vs) → s.io.hIn = [] → s.io.rstIn = 0 →
    (∀ k : Nat, 1 ≤ k → k ≤ 66 → ∃ u : State, Host.Core.run Sys2Proof.core k s = .next u ∧
      u.io.response = some { port := .edge, word := 0 } ∧ u.lf = s.lf ∧ u.bt = s.bt) ∧
    (∃ u : State, Host.Core.run Sys2Proof.core 67 s = .next u ∧
      u.io.response = some { port := .edge, word := Reply.word { dres := 1, kind := 1, address := a, command := x } } ∧
      u.lf = { kind := .dataFrame, address := a, command := x, time := endTime s.cfg t0 (vs.take 66), pending := true } ∧
      u.bt = s.bt) ∧
    (∃ u : State, Host.Core.run Sys2Proof.core 68 s = .next u ∧
      u.io.response = some { port := .edge, word := 0 } ∧
      u.lf = { kind := .dataFrame, address := a, command := x, time := endTime s.cfg t0 (vs.take 66), pending := true } ∧
      u.dec = clearedAt (endTime s.cfg t0 vs) ∧ u.bt = s.bt ∧ u.io.eIn = [])

/-- 30_encoding R91, 41_frame_decoder R156, R165: the same for a Repeat frame, reported at edge 3 with the address and
command of the last Data frame. -/
def Obligations.EveryWellFormedRepeatFrameIsDecoded : Prop :=
  ∀ (s : State) (t0 : Ts) (vs : List Interval),
    configLegal s.cfg = true → necMultipliers s.cfg → timeFits s.cfg t0 = true →
    (s.dec.st = .idle ∨ tFrame s.cfg < (durationOf s.cfg s.dec t0).toNat) →
    fitsSymbols s.cfg (repeatSymbols s.cfg) vs = true →
    s.io.eIn = edgeWords (edgeStream s.cfg t0 vs) → s.io.hIn = [] → s.io.rstIn = 0 →
    (∀ k : Nat, 1 ≤ k → k ≤ 2 → ∃ u : State, Host.Core.run Sys2Proof.core k s = .next u ∧
      u.io.response = some { port := .edge, word := 0 } ∧ u.lf = s.lf ∧ u.bt = s.bt) ∧
    (∃ u : State, Host.Core.run Sys2Proof.core 3 s = .next u ∧
      u.io.response =
        some { port := .edge, word := Reply.word { dres := 1, kind := 2, address := s.lf.address, command := s.lf.command } } ∧
      u.lf = { s.lf with kind := .repeatFrame, time := endTime s.cfg t0 (vs.take 2), pending := true } ∧ u.bt = s.bt) ∧
    (∃ u : State, Host.Core.run Sys2Proof.core 4 s = .next u ∧
      u.io.response = some { port := .edge, word := 0 } ∧
      u.lf = { s.lf with kind := .repeatFrame, time := endTime s.cfg t0 (vs.take 2), pending := true } ∧
      u.dec = clearedAt (endTime s.cfg t0 vs) ∧ u.bt = s.bt ∧ u.io.eIn = [])

/-- 30_encoding R94: in every legal configuration with the NEC multipliers and a positive pulse, the reference encoder's
intervals lie in their windows, a Data frame has 67 of them, and their lengths add up to `(89 + 2·ones) × PULSE` with
`ones = 8 + popcount(address)`. -/
def Obligations.ReferenceEncoderShape : Prop :=
  ∀ (c : Config) (a : Addr) (x : Byte), configLegal c = true → necMultipliers c → 0 < c.pulse →
    fitsSymbols c (frameSymbols c a x) (encodeFrame c a x) = true ∧
    fitsSymbols c (repeatSymbols c) (encodeRepeat c) = true ∧
    (encodeFrame c a x).length = 67 ∧
    ((encodeFrame c a x).map fun v => v.dur.toNat).sum =
      (89 + 2 * (8 + ((List.range 16).filter fun j => a.getLsbD j).length)) * c.pulse

/-! ## The decoded-frame operations. -/

/-- 42_frame_api R190, R192, R193: three reads that change no register. -/
def Obligations.FrameStatusReads : Prop :=
  ∀ s : State,
    exec .fdAvail s = .next (s.answer .host { value := if s.lf.pending then 1 else 0 }) ∧
    exec .fdLastEvt s = .next (s.answer .host { value := s.lf.time }) ∧
    (∀ now : Ts, exec (.fdTimeout now) s = .next (s.answer .host { value := subTs s.cfg now s.lf.time }))

/-- 42_frame_api R191: `FD_READ` returns the pending frame with its time and clears `frame_pending`, and nothing else;
without a pending frame it returns the no-protocol frame and changes no register. -/
def Obligations.FrameReadClaimsThePendingFrame : Prop :=
  ∀ s : State,
    (s.lf.pending = true →
      exec .fdRead s = .next (State.answer { s with lf := { s.lf with pending := false } } .host
        { kind := s.lf.kind.bits, address := s.lf.address, command := s.lf.command, value := s.lf.time })) ∧
    (s.lf.pending = false → exec .fdRead s = .next (s.answer .host { value := s.lf.time }))

/-- 42_frame_api R194, 30_encoding R101: the response of `FD_READ` with its top four bits replaced by 0x6 is the `BT_FRAME`
command for the same frame and time, and claiming a frame by `FD_READ` and passing it on that way is `BT_POLL`. -/
def Obligations.ReadThenFrameIsPoll : Prop :=
  ∀ (s : State) (now : Ts), s.lf.pending = true → timeFits s.cfg s.lf.time = true →
    ∃ (u v : State) (w : Word), exec .fdRead s = .next u ∧ u.io.response = some { port := .host, word := w } ∧
      decode s.cfg .host (0x6#4 ++ w.extractLsb' 0 60) =
        .btFrame s.lf.kind.field s.lf.address s.lf.command s.lf.time ∧
      exec (decode s.cfg .host (0x6#4 ++ w.extractLsb' 0 60)) u = .next v ∧ exec (.btPoll now) s = .next v

/-! ## The button tracker. -/

/-- 43_button_tracker R202, R203, R211: the frames that change nothing: a no-protocol frame and the reserved kind, a Data
frame of a filtered address, and a Repeat frame with no active press. -/
def Obligations.FramesThatChangeNothing : Prop :=
  ∀ (k : KindField) (a : Addr) (x : Byte) (t : Ts) (s : State),
    (k = .noProtocol ∨ k = .reserved ∨
      (k = .dataFrame ∧ s.cfg.filterEn = true ∧ a ≠ s.cfg.filterAddr) ∨
      (k = .repeatFrame ∧ (s.bt.pressCount = 0 ∨ s.bt.timeoutType = .timeout))) →
    exec (.btFrame k a x t) s = .next (s.answer .host { value := snapshot s.bt })

/-- 43_button_tracker R203: the address filter. A Data frame of another address changes nothing; with the filter off the
address is not looked at, and with it on the one accepted address acts as with the filter off; the filter and the address
never matter to a Repeat frame. -/
def Obligations.AddressFilter : Prop :=
  ∀ (a a' : Addr) (x : Byte) (t : Ts) (s : State),
    (s.cfg.filterEn = true → a ≠ s.cfg.filterAddr →
      exec (.btFrame .dataFrame a x t) s = .next (s.answer .host { value := snapshot s.bt })) ∧
    (s.cfg.filterEn = false → exec (.btFrame .dataFrame a x t) s = exec (.btFrame .dataFrame a' x t) s) ∧
    (∃ u v : State, exec (.btFrame .dataFrame s.cfg.filterAddr x t) s = .next u ∧
      exec (.btFrame .dataFrame a x t) { s with cfg := { s.cfg with filterEn := false } } = .next v ∧ u.bt = v.bt) ∧
    (∀ (fe : Bool) (fa : Addr), ∃ u v : State, exec (.btFrame .repeatFrame a x t) s = .next u ∧
      exec (.btFrame .repeatFrame a' x t) { s with cfg := { s.cfg with filterEn := fe, filterAddr := fa } } = .next v ∧
      u.bt = v.bt ∧ u.io = v.io)

/-- 43_button_tracker R204, R205: the first Data frame, and a Data frame after a consumed release, whatever its command,
start a plain new press; the flags keep their values. -/
def Obligations.NewPress : Prop :=
  ∀ (a : Addr) (x : Byte) (t : Ts) (s : State), (s.cfg.filterEn = false ∨ a = s.cfg.filterAddr) →
    (s.bt.pressCount = 0 ∨ (s.bt.timeoutType = .timeout ∧ s.bt.relFlag = false)) →
    exec (.btFrame .dataFrame a x t) s = .next (State.answer
      { s with bt := { s.bt with
          lastCommand := x, pressCount := 1, holdCount := 0, timeoutType := .noTimeout, lastEventTime := t } } .host
      { value := (0#6) ++ (0#2) ++ (0#8) ++ (1#8) ++ x })

/-- 43_button_tracker R206, R207: a Data frame after an unconsumed release is a NextButton for the same command, whose press
count saturates, and a NewButton for another; the flags keep their values. -/
def Obligations.PressAfterUnconsumedRelease : Prop :=
  ∀ (a : Addr) (x : Byte) (t : Ts) (s : State), (s.cfg.filterEn = false ∨ a = s.cfg.filterAddr) →
    s.bt.pressCount ≠ 0 → s.bt.timeoutType = .timeout → s.bt.relFlag = true →
    (x = s.bt.lastCommand →
      exec (.btFrame .dataFrame a x t) s = .next (State.answer
        { s with bt := { s.bt with
            pressCount := satInc s.bt.pressCount, holdCount := 0, timeoutType := .nextButton, lastEventTime := t } }
        .host { value := (0#6) ++ (2#2) ++ (0#8) ++ satInc s.bt.pressCount ++ x })) ∧
    (x ≠ s.bt.lastCommand →
      exec (.btFrame .dataFrame a x t) s = .next (State.answer
        { s with bt := { s.bt with
            lastCommand := x, pressCount := 1, holdCount := 0, timeoutType := .newButton, lastEventTime := t } }
        .host { value := (0#6) ++ (3#2) ++ (0#8) ++ (1#8) ++ x }))

/-- 43_button_tracker R208, R209: while a press is active, a Data frame of the same command only refreshes the event time,
and one of another command releases the old key and presses the new one in one step. -/
def Obligations.DataFrameWhileActive : Prop :=
  ∀ (a : Addr) (x : Byte) (t : Ts) (s : State), (s.cfg.filterEn = false ∨ a = s.cfg.filterAddr) →
    s.bt.pressCount ≠ 0 → s.bt.timeoutType ≠ .timeout →
    (x = s.bt.lastCommand →
      exec (.btFrame .dataFrame a x t) s = .next (State.answer
        { s with bt := { s.bt with lastEventTime := t } } .host { value := snapshot s.bt })) ∧
    (x ≠ s.bt.lastCommand →
      exec (.btFrame .dataFrame a x t) s = .next (State.answer
        { s with bt :=
            { lastCommand := x, pressCount := 1, holdCount := 0, timeoutType := .newButton, lastEventTime := t,
              relFlag := true, toFlag := true } } .host
        { value := (0#6) ++ (3#2) ++ (0#8) ++ (1#8) ++ x }))

/-- 43_button_tracker R210: a Repeat frame while a press is active is a hold; its address and command operands and the filter
are not looked at. -/
def Obligations.RepeatFrameHolds : Prop :=
  ∀ (a : Addr) (x : Byte) (t : Ts) (s : State), s.bt.pressCount ≠ 0 → s.bt.timeoutType ≠ .timeout →
    exec (.btFrame .repeatFrame a x t) s = .next (State.answer
      { s with bt := { s.bt with holdCount := satInc s.bt.holdCount, lastEventTime := t } } .host
      { value := (0#6) ++ s.bt.timeoutType.bits ++ satInc s.bt.holdCount ++ s.bt.pressCount ++ s.bt.lastCommand })

/-- 43_button_tracker R213, R214: a release is registered exactly when a press is active and the elapsed time is strictly
above `T_RELEASE`; it raises both flags and keeps the counters; otherwise nothing changes. -/
def Obligations.CheckTimeoutRegistersOneRelease : Prop :=
  ∀ (now : Ts) (s : State),
    (s.bt.pressCount ≠ 0 → s.bt.timeoutType ≠ .timeout →
      s.cfg.tRelease < (subTs s.cfg now s.bt.lastEventTime).toNat →
      exec (.btChkTo now) s = .next (State.answer
        { s with bt := { s.bt with timeoutType := .timeout, relFlag := true, toFlag := true } } .host
        { value := (0#6) ++ (1#2) ++ s.bt.holdCount ++ s.bt.pressCount ++ s.bt.lastCommand })) ∧
    (s.bt.pressCount = 0 ∨ s.bt.timeoutType = .timeout ∨
      (subTs s.cfg now s.bt.lastEventTime).toNat ≤ s.cfg.tRelease →
      exec (.btChkTo now) s = .next (s.answer .host { value := snapshot s.bt }))

/-- 43_button_tracker R215: `BT_POLL` claims a pending frame and applies it with the frame's own completion time, else it is
`BT_CHKTO`; never both; and a second `BT_POLL` with no frame decoded in between returns the same command and counts,
whatever the two times. -/
def Obligations.PollClaimsOrChecks : Prop :=
  (∀ (now : Ts) (s : State),
    (s.lf.pending = true → ∃ u : State, exec (.btPoll now) s = .next u ∧ u.lf = { s.lf with pending := false } ∧
      exec (.btFrame s.lf.kind.field s.lf.address s.lf.command s.lf.time)
        { s with lf := { s.lf with pending := false } } = .next u) ∧
    (s.lf.pending = false → ∃ u : State, exec (.btPoll now) s = .next u ∧ u.lf = s.lf ∧
      exec (.btChkTo now) s = .next u)) ∧
  (∀ (n1 n2 : Ts) (s : State), ∃ u v : State, exec (.btPoll n1) s = .next u ∧ exec (.btPoll n2) u = .next v ∧
    v.bt.lastCommand = u.bt.lastCommand ∧ v.bt.pressCount = u.bt.pressCount ∧ v.bt.holdCount = u.bt.holdCount ∧
    v.dec = u.dec ∧ v.lf = u.lf)

/-- 43_button_tracker R216, R217, R218, R221: the four accessors that change no register. -/
def Obligations.TrackerReads : Prop :=
  ∀ s : State,
    exec .btCmd s = .next (s.answer .host { value := (0#24) ++ s.bt.lastCommand }) ∧
    exec .btPressCnt s = .next (s.answer .host { value := (0#24) ++ s.bt.pressCount }) ∧
    exec .btToType s = .next (s.answer .host { value := (0#30) ++ s.bt.timeoutType.bits }) ∧
    (∀ n : Byte,
      (n.toNat < s.bt.holdCount.toNat →
        exec (.btHoldCnt n) s = .next (s.answer .host { value := (0#24) ++ s.bt.holdCount })) ∧
      (s.bt.holdCount.toNat ≤ n.toNat → exec (.btHoldCnt n) s = .next (s.answer .host {})))

/-- 43_button_tracker R219, R220: each one-shot read returns its flag and clears that flag alone, so that the same read
again returns 0. -/
def Obligations.OneShotFlagsReadAndClear : Prop :=
  ∀ s : State,
    exec .btPressTo s = .next (State.answer { s with bt := { s.bt with toFlag := false } } .host
      { value := if s.bt.toFlag then 1 else 0 }) ∧
    exec .btRelease s = .next (State.answer { s with bt := { s.bt with relFlag := false } } .host
      { value := if s.bt.relFlag then 1 else 0 }) ∧
    (∃ u : State, exec .btPressTo s = .next u ∧ exec .btPressTo u = .next (u.answer .host {})) ∧
    (∃ u : State, exec .btRelease s = .next u ∧ exec .btRelease u = .next (u.answer .host {}))

/-- 43_button_tracker R222: `BT_RESET` writes the whole ButtonSession and nothing else. -/
def Obligations.SessionResetClearsOnlyTheSession : Prop :=
  ∀ s : State, exec .btReset s = .next (State.answer
    { s with bt :=
        { lastCommand := 0, pressCount := 0, holdCount := 0, timeoutType := .noTimeout, lastEventTime := 0,
          relFlag := false, toFlag := false } } .host {})

/-! ## Whole-machine rules. -/

/-- 10_state R20, 60_exceptions R262, 41 R167: every host operation completes, answers on the H port, and leaves
DecodeState, the frame data, the configuration and what the agents are about to present unchanged; only `FD_READ` and
`BT_POLL` may clear `frame_pending`, none sets it; and only the operations that write ButtonSession change it. -/
def Obligations.HostOperationsKeepTheDecoder : Prop :=
  ∀ (i : Instr) (s : State), isHostOp i = true → ∃ u : State, exec i s = .next u ∧
    u.dec = s.dec ∧ u.lf.kind = s.lf.kind ∧ u.lf.address = s.lf.address ∧ u.lf.command = s.lf.command ∧
    u.lf.time = s.lf.time ∧ (u.lf.pending = true → s.lf.pending = true) ∧ (mayClaim i = false → u.lf = s.lf) ∧
    (mayWriteSession i = false → u.bt = s.bt) ∧ u.cfg = s.cfg ∧ u.io.eIn = s.io.eIn ∧ u.io.hIn = s.io.hIn ∧
    u.io.rstIn = s.io.rstIn ∧ u.io.turn = s.io.turn ∧ ∃ w, u.io.response = some { port := .host, word := w }

/-- 43_button_tracker R223: whatever the operation, `hold_count` does not decrease and `press_count` does not change, but by
an operation that starts a press, which sets `hold_count` to 0 and `press_count` to 1 or to its saturated successor, and
by `BT_RESET`. -/
def Obligations.CountersAreMonotonicWithinAPress : Prop :=
  ∀ (i : Instr) (s u : State), exec i s = .next u →
    (i ≠ .btReset → opStartsPress s i = false →
      s.bt.holdCount ≤ u.bt.holdCount ∧ u.bt.pressCount = s.bt.pressCount ∧ u.bt.lastCommand = s.bt.lastCommand) ∧
    (opStartsPress s i = true →
      u.bt.holdCount = 0 ∧ (u.bt.pressCount = 1 ∨
        (u.bt.timeoutType = .nextButton ∧ u.bt.pressCount = satInc s.bt.pressCount)))

/-- 43_button_tracker R224: the complete list of changes of `timeout_type`, over every operation, in a session that meets the
tracker invariant of 10_state R44. -/
def Obligations.TimeoutTypeLifeCycle : Prop :=
  ∀ (i : Instr) (s u : State), trackerInv s.bt → exec i s = .next u → u.bt.timeoutType ≠ s.bt.timeoutType →
    (i = .btReset ∧ u.bt.timeoutType = .noTimeout) ∨
    (opStartsPress s i = false ∧ s.bt.timeoutType ≠ .timeout ∧ s.bt.pressCount ≠ 0 ∧ u.bt.timeoutType = .timeout ∧
      u.bt.relFlag = true ∧ u.bt.toFlag = true) ∨
    (opStartsPress s i = true ∧ s.bt.timeoutType ≠ .timeout ∧ s.bt.pressCount ≠ 0 ∧
      u.bt.lastCommand ≠ s.bt.lastCommand ∧ u.bt.timeoutType = .newButton) ∨
    (opStartsPress s i = true ∧ s.bt.timeoutType = .timeout ∧ s.bt.relFlag = false ∧
      u.bt.timeoutType = .noTimeout) ∨
    (opStartsPress s i = true ∧ s.bt.timeoutType = .timeout ∧ s.bt.relFlag = true ∧
      u.bt.lastCommand = s.bt.lastCommand ∧ u.bt.timeoutType = .nextButton) ∨
    (opStartsPress s i = true ∧ s.bt.timeoutType = .timeout ∧ s.bt.relFlag = true ∧
      u.bt.lastCommand ≠ s.bt.lastCommand ∧ u.bt.timeoutType = .newButton)

/-- 10_state R38, R39: the one-shot flags are raised together, only by a release transition of an active press, and each is
lowered only by its own read and by `BT_RESET`. -/
def Obligations.FlagsChangeOnlyByReleasesAndTheirReads : Prop :=
  ∀ (i : Instr) (s u : State), exec i s = .next u →
    (s.bt.relFlag = true → u.bt.relFlag = false → i = .btRelease ∨ i = .btReset) ∧
    (s.bt.toFlag = true → u.bt.toFlag = false → i = .btPressTo ∨ i = .btReset) ∧
    ((s.bt.relFlag = false ∧ u.bt.relFlag = true) ∨ (s.bt.toFlag = false ∧ u.bt.toFlag = true) →
      s.bt.pressCount ≠ 0 ∧ s.bt.timeoutType ≠ .timeout ∧ u.bt.relFlag = true ∧ u.bt.toFlag = true ∧
      (u.bt.timeoutType = .timeout ∨ u.bt.timeoutType = .newButton))

/-- 10_state R42, R43, R44: the invariants hold after reset, in every configuration and whatever is presented. -/
def Obligations.InvariantHoldsAfterReset : Prop :=
  ∀ (c : Config) (q : Interface), State.Inv { State.reset with cfg := c, io := q }

/-- 10_state R42, R43, R44: every step keeps the decoder, frame and tracker invariants, and that time registers fit their
width. -/
def Obligations.EveryStepKeepsTheInvariant : Prop :=
  ∀ s u : State, s.Inv → step s = .next u → u.Inv
end

