-- ==== Sys2Proof/Laws/State.lean ====
section
/-!
SUPPORT. One lemma per field per update of State, so that no proof unfolds a record update.
-/

namespace Sys2Proof.Machine

@[simp] theorem State.setDec_dec (s : State) (d : DecodeState) : (s.setDec d).dec = d := rfl
@[simp] theorem State.setDec_lf (s : State) (d : DecodeState) : (s.setDec d).lf = s.lf := rfl
@[simp] theorem State.setDec_bt (s : State) (d : DecodeState) : (s.setDec d).bt = s.bt := rfl
@[simp] theorem State.setDec_cfg (s : State) (d : DecodeState) : (s.setDec d).cfg = s.cfg := rfl
@[simp] theorem State.setDec_io (s : State) (d : DecodeState) : (s.setDec d).io = s.io := rfl

@[simp] theorem State.setLf_dec (s : State) (l : LastDecodedFrame) : (s.setLf l).dec = s.dec := rfl
@[simp] theorem State.setLf_lf (s : State) (l : LastDecodedFrame) : (s.setLf l).lf = l := rfl
@[simp] theorem State.setLf_bt (s : State) (l : LastDecodedFrame) : (s.setLf l).bt = s.bt := rfl
@[simp] theorem State.setLf_cfg (s : State) (l : LastDecodedFrame) : (s.setLf l).cfg = s.cfg := rfl
@[simp] theorem State.setLf_io (s : State) (l : LastDecodedFrame) : (s.setLf l).io = s.io := rfl

@[simp] theorem State.setBt_dec (s : State) (b : ButtonSession) : (s.setBt b).dec = s.dec := rfl
@[simp] theorem State.setBt_lf (s : State) (b : ButtonSession) : (s.setBt b).lf = s.lf := rfl
@[simp] theorem State.setBt_bt (s : State) (b : ButtonSession) : (s.setBt b).bt = b := rfl
@[simp] theorem State.setBt_cfg (s : State) (b : ButtonSession) : (s.setBt b).cfg = s.cfg := rfl
@[simp] theorem State.setBt_io (s : State) (b : ButtonSession) : (s.setBt b).io = s.io := rfl

@[simp] theorem State.setIo_dec (s : State) (q : Interface) : (s.setIo q).dec = s.dec := rfl
@[simp] theorem State.setIo_lf (s : State) (q : Interface) : (s.setIo q).lf = s.lf := rfl
@[simp] theorem State.setIo_bt (s : State) (q : Interface) : (s.setIo q).bt = s.bt := rfl
@[simp] theorem State.setIo_cfg (s : State) (q : Interface) : (s.setIo q).cfg = s.cfg := rfl
@[simp] theorem State.setIo_io (s : State) (q : Interface) : (s.setIo q).io = q := rfl

@[simp] theorem State.answer_dec (s : State) (p : Port) (r : Reply) : (s.answer p r).dec = s.dec := rfl
@[simp] theorem State.answer_lf (s : State) (p : Port) (r : Reply) : (s.answer p r).lf = s.lf := rfl
@[simp] theorem State.answer_bt (s : State) (p : Port) (r : Reply) : (s.answer p r).bt = s.bt := rfl
@[simp] theorem State.answer_cfg (s : State) (p : Port) (r : Reply) : (s.answer p r).cfg = s.cfg := rfl
@[simp] theorem State.answer_response (s : State) (p : Port) (r : Reply) :
    (s.answer p r).io.response = some { port := p, word := r.word } := rfl
@[simp] theorem State.answer_eIn (s : State) (p : Port) (r : Reply) : (s.answer p r).io.eIn = s.io.eIn := rfl
@[simp] theorem State.answer_hIn (s : State) (p : Port) (r : Reply) : (s.answer p r).io.hIn = s.io.hIn := rfl
@[simp] theorem State.answer_rstIn (s : State) (p : Port) (r : Reply) : (s.answer p r).io.rstIn = s.io.rstIn := rfl
@[simp] theorem State.answer_turn (s : State) (p : Port) (r : Reply) : (s.answer p r).io.turn = s.io.turn := rfl

@[simp] theorem State.trackTo_dec (s : State) (b : ButtonSession) : (s.trackTo b).dec = s.dec := rfl
@[simp] theorem State.trackTo_lf (s : State) (b : ButtonSession) : (s.trackTo b).lf = s.lf := rfl
@[simp] theorem State.trackTo_cfg (s : State) (b : ButtonSession) : (s.trackTo b).cfg = s.cfg := rfl
@[simp] theorem State.trackTo_bt (s : State) (b : ButtonSession) : (s.trackTo b).bt = b := rfl
@[simp] theorem State.trackTo_response (s : State) (b : ButtonSession) :
    (s.trackTo b).io.response = some { port := .host, word := (snapshotReply b).word } := rfl
@[simp] theorem State.trackTo_eIn (s : State) (b : ButtonSession) : (s.trackTo b).io.eIn = s.io.eIn := rfl
@[simp] theorem State.trackTo_hIn (s : State) (b : ButtonSession) : (s.trackTo b).io.hIn = s.io.hIn := rfl
@[simp] theorem State.trackTo_rstIn (s : State) (b : ButtonSession) : (s.trackTo b).io.rstIn = s.io.rstIn := rfl
@[simp] theorem State.trackTo_turn (s : State) (b : ButtonSession) : (s.trackTo b).io.turn = s.io.turn := rfl

@[simp] theorem DecodeState.clear_st (d : DecodeState) : d.clear.st = .idle := rfl
@[simp] theorem DecodeState.clear_half (d : DecodeState) : d.clear.half = false := rfl
@[simp] theorem DecodeState.clear_bitIndex (d : DecodeState) : d.clear.bitIndex = 0 := rfl
@[simp] theorem DecodeState.clear_buf (d : DecodeState) : d.clear.buf = 0 := rfl
@[simp] theorem DecodeState.clear_markDur (d : DecodeState) : d.clear.markDur = 0 := rfl
@[simp] theorem DecodeState.clear_lastEdgeTime (d : DecodeState) : d.clear.lastEdgeTime = d.lastEdgeTime := rfl
@[simp] theorem startData_st (d : DecodeState) : (startData d).st = .receivingData := rfl
@[simp] theorem startData_half (d : DecodeState) : (startData d).half = false := rfl
@[simp] theorem startData_bitIndex (d : DecodeState) : (startData d).bitIndex = 0 := rfl
@[simp] theorem startData_buf (d : DecodeState) : (startData d).buf = 0 := rfl
@[simp] theorem startData_markDur (d : DecodeState) : (startData d).markDur = 0 := rfl
@[simp] theorem startData_lastEdgeTime (d : DecodeState) : (startData d).lastEdgeTime = d.lastEdgeTime := rfl

@[simp] theorem claimFrame_kind (l : LastDecodedFrame) : (claimFrame l).kind = l.kind := rfl
@[simp] theorem claimFrame_address (l : LastDecodedFrame) : (claimFrame l).address = l.address := rfl
@[simp] theorem claimFrame_command (l : LastDecodedFrame) : (claimFrame l).command = l.command := rfl
@[simp] theorem claimFrame_time (l : LastDecodedFrame) : (claimFrame l).time = l.time := rfl
@[simp] theorem claimFrame_pending (l : LastDecodedFrame) : (claimFrame l).pending = false := rfl
@[simp] theorem storeRepeat_kind (t : Ts) (l : LastDecodedFrame) : (storeRepeat t l).kind = .repeatFrame := rfl
@[simp] theorem storeRepeat_address (t : Ts) (l : LastDecodedFrame) : (storeRepeat t l).address = l.address := rfl
@[simp] theorem storeRepeat_command (t : Ts) (l : LastDecodedFrame) : (storeRepeat t l).command = l.command := rfl
@[simp] theorem storeRepeat_time (t : Ts) (l : LastDecodedFrame) : (storeRepeat t l).time = t := rfl
@[simp] theorem storeRepeat_pending (t : Ts) (l : LastDecodedFrame) : (storeRepeat t l).pending = true := rfl
@[simp] theorem storeData_kind (t : Ts) (buf : BitVec 32) : (storeData t buf).kind = .dataFrame := rfl
@[simp] theorem storeData_address (t : Ts) (buf : BitVec 32) : (storeData t buf).address = bufAddress buf := rfl
@[simp] theorem storeData_command (t : Ts) (buf : BitVec 32) : (storeData t buf).command = bufCommand buf := rfl
@[simp] theorem storeData_time (t : Ts) (buf : BitVec 32) : (storeData t buf).time = t := rfl
@[simp] theorem storeData_pending (t : Ts) (buf : BitVec 32) : (storeData t buf).pending = true := rfl

@[simp] theorem raiseFlags_lastCommand (b : ButtonSession) : (raiseFlags b).lastCommand = b.lastCommand := rfl
@[simp] theorem raiseFlags_pressCount (b : ButtonSession) : (raiseFlags b).pressCount = b.pressCount := rfl
@[simp] theorem raiseFlags_holdCount (b : ButtonSession) : (raiseFlags b).holdCount = b.holdCount := rfl
@[simp] theorem raiseFlags_timeoutType (b : ButtonSession) : (raiseFlags b).timeoutType = b.timeoutType := rfl
@[simp] theorem raiseFlags_lastEventTime (b : ButtonSession) : (raiseFlags b).lastEventTime = b.lastEventTime := rfl
@[simp] theorem raiseFlags_relFlag (b : ButtonSession) : (raiseFlags b).relFlag = true := rfl
@[simp] theorem raiseFlags_toFlag (b : ButtonSession) : (raiseFlags b).toFlag = true := rfl
@[simp] theorem clearRelFlag_lastCommand (b : ButtonSession) : (clearRelFlag b).lastCommand = b.lastCommand := rfl
@[simp] theorem clearRelFlag_pressCount (b : ButtonSession) : (clearRelFlag b).pressCount = b.pressCount := rfl
@[simp] theorem clearRelFlag_holdCount (b : ButtonSession) : (clearRelFlag b).holdCount = b.holdCount := rfl
@[simp] theorem clearRelFlag_timeoutType (b : ButtonSession) : (clearRelFlag b).timeoutType = b.timeoutType := rfl
@[simp] theorem clearRelFlag_lastEventTime (b : ButtonSession) : (clearRelFlag b).lastEventTime = b.lastEventTime := rfl
@[simp] theorem clearRelFlag_relFlag (b : ButtonSession) : (clearRelFlag b).relFlag = false := rfl
@[simp] theorem clearRelFlag_toFlag (b : ButtonSession) : (clearRelFlag b).toFlag = b.toFlag := rfl
@[simp] theorem clearToFlag_lastCommand (b : ButtonSession) : (clearToFlag b).lastCommand = b.lastCommand := rfl
@[simp] theorem clearToFlag_pressCount (b : ButtonSession) : (clearToFlag b).pressCount = b.pressCount := rfl
@[simp] theorem clearToFlag_holdCount (b : ButtonSession) : (clearToFlag b).holdCount = b.holdCount := rfl
@[simp] theorem clearToFlag_timeoutType (b : ButtonSession) : (clearToFlag b).timeoutType = b.timeoutType := rfl
@[simp] theorem clearToFlag_lastEventTime (b : ButtonSession) : (clearToFlag b).lastEventTime = b.lastEventTime := rfl
@[simp] theorem clearToFlag_relFlag (b : ButtonSession) : (clearToFlag b).relFlag = b.relFlag := rfl
@[simp] theorem clearToFlag_toFlag (b : ButtonSession) : (clearToFlag b).toFlag = false := rfl

@[simp] theorem startPress_lastCommand (b : ButtonSession) (x : Byte) (t : Ts) (how : TimeoutType) :
    (startPress b x t how).lastCommand = x := rfl
@[simp] theorem startPress_pressCount (b : ButtonSession) (x : Byte) (t : Ts) (how : TimeoutType) :
    (startPress b x t how).pressCount = 1 := rfl
@[simp] theorem startPress_holdCount (b : ButtonSession) (x : Byte) (t : Ts) (how : TimeoutType) :
    (startPress b x t how).holdCount = 0 := rfl
@[simp] theorem startPress_timeoutType (b : ButtonSession) (x : Byte) (t : Ts) (how : TimeoutType) :
    (startPress b x t how).timeoutType = how := rfl
@[simp] theorem startPress_lastEventTime (b : ButtonSession) (x : Byte) (t : Ts) (how : TimeoutType) :
    (startPress b x t how).lastEventTime = t := rfl
@[simp] theorem startPress_relFlag (b : ButtonSession) (x : Byte) (t : Ts) (how : TimeoutType) :
    (startPress b x t how).relFlag = b.relFlag := rfl
@[simp] theorem startPress_toFlag (b : ButtonSession) (x : Byte) (t : Ts) (how : TimeoutType) :
    (startPress b x t how).toFlag = b.toFlag := rfl
@[simp] theorem pressAgain_lastCommand (b : ButtonSession) (t : Ts) :
    (pressAgain b t).lastCommand = b.lastCommand := rfl
@[simp] theorem pressAgain_pressCount (b : ButtonSession) (t : Ts) :
    (pressAgain b t).pressCount = satInc b.pressCount := rfl
@[simp] theorem pressAgain_holdCount (b : ButtonSession) (t : Ts) :
    (pressAgain b t).holdCount = 0 := rfl
@[simp] theorem pressAgain_timeoutType (b : ButtonSession) (t : Ts) :
    (pressAgain b t).timeoutType = .nextButton := rfl
@[simp] theorem pressAgain_lastEventTime (b : ButtonSession) (t : Ts) :
    (pressAgain b t).lastEventTime = t := rfl
@[simp] theorem pressAgain_relFlag (b : ButtonSession) (t : Ts) :
    (pressAgain b t).relFlag = b.relFlag := rfl
@[simp] theorem pressAgain_toFlag (b : ButtonSession) (t : Ts) :
    (pressAgain b t).toFlag = b.toFlag := rfl

@[simp] theorem resetEvent_dec (s : State) : (resetEvent s).dec = .reset := rfl
@[simp] theorem resetEvent_lf (s : State) : (resetEvent s).lf = .reset := rfl
@[simp] theorem resetEvent_bt (s : State) : (resetEvent s).bt = .reset := rfl
@[simp] theorem resetEvent_cfg (s : State) : (resetEvent s).cfg = s.cfg := rfl
@[simp] theorem resetEvent_eIn (s : State) : (resetEvent s).io.eIn = s.io.eIn := rfl
@[simp] theorem resetEvent_hIn (s : State) : (resetEvent s).io.hIn = s.io.hIn := rfl
@[simp] theorem resetEvent_rstIn (s : State) : (resetEvent s).io.rstIn = s.io.rstIn := rfl
@[simp] theorem resetEvent_turn (s : State) : (resetEvent s).io.turn = s.io.turn := rfl
@[simp] theorem resetEvent_response (s : State) : (resetEvent s).io.response = none := rfl
@[simp] theorem enterLead_st (d : DecodeState) : (enterLead d).st = .receivingLead := rfl
@[simp] theorem enterLead_half (d : DecodeState) : (enterLead d).half = d.half := rfl
@[simp] theorem enterLead_bitIndex (d : DecodeState) : (enterLead d).bitIndex = d.bitIndex := rfl
@[simp] theorem enterLead_buf (d : DecodeState) : (enterLead d).buf = d.buf := rfl
@[simp] theorem enterLead_markDur (d : DecodeState) : (enterLead d).markDur = d.markDur := rfl
@[simp] theorem enterLead_lastEdgeTime (d : DecodeState) : (enterLead d).lastEdgeTime = d.lastEdgeTime := rfl
@[simp] theorem nextBit_st (d : DecodeState) : (nextBit d).st = d.st := rfl
@[simp] theorem nextBit_half (d : DecodeState) : (nextBit d).half = false := rfl
@[simp] theorem nextBit_bitIndex (d : DecodeState) : (nextBit d).bitIndex = d.bitIndex + 1#5 := rfl
@[simp] theorem nextBit_buf (d : DecodeState) : (nextBit d).buf = d.buf := rfl
@[simp] theorem nextBit_markDur (d : DecodeState) : (nextBit d).markDur = 0 := rfl
@[simp] theorem nextBit_lastEdgeTime (d : DecodeState) : (nextBit d).lastEdgeTime = d.lastEdgeTime := rfl
@[simp] theorem putBit_st (b : Bool) (d : DecodeState) : (putBit b d).st = d.st := rfl
@[simp] theorem putBit_half (b : Bool) (d : DecodeState) : (putBit b d).half = d.half := rfl
@[simp] theorem putBit_bitIndex (b : Bool) (d : DecodeState) : (putBit b d).bitIndex = d.bitIndex := rfl
@[simp] theorem putBit_buf (b : Bool) (d : DecodeState) : (putBit b d).buf = bufSetBit d.buf d.bitIndex b := rfl
@[simp] theorem putBit_markDur (b : Bool) (d : DecodeState) : (putBit b d).markDur = d.markDur := rfl
@[simp] theorem putBit_lastEdgeTime (b : Bool) (d : DecodeState) : (putBit b d).lastEdgeTime = d.lastEdgeTime := rfl
@[simp] theorem keepMark_st (dur : Ts) (d : DecodeState) : (keepMark dur d).st = d.st := rfl
@[simp] theorem keepMark_half (dur : Ts) (d : DecodeState) : (keepMark dur d).half = true := rfl
@[simp] theorem keepMark_bitIndex (dur : Ts) (d : DecodeState) : (keepMark dur d).bitIndex = d.bitIndex := rfl
@[simp] theorem keepMark_buf (dur : Ts) (d : DecodeState) : (keepMark dur d).buf = d.buf := rfl
@[simp] theorem keepMark_markDur (dur : Ts) (d : DecodeState) : (keepMark dur d).markDur = dur := rfl
@[simp] theorem keepMark_lastEdgeTime (dur : Ts) (d : DecodeState) : (keepMark dur d).lastEdgeTime = d.lastEdgeTime := rfl
@[simp] theorem pendingWith_dec (d : DecodeState) (l : LastDecodedFrame) :
    (pendingWith d l).dec = d := rfl
@[simp] theorem pendingWith_lf (d : DecodeState) (l : LastDecodedFrame) :
    (pendingWith d l).lf = l := rfl
@[simp] theorem pendingWith_result (d : DecodeState) (l : LastDecodedFrame) :
    (pendingWith d l).result = .pending := rfl
@[simp] theorem repeatReady_dec (t : Ts) (d : DecodeState) (l : LastDecodedFrame) :
    (repeatReady t d l).dec = d.clear := rfl
@[simp] theorem repeatReady_lf (t : Ts) (d : DecodeState) (l : LastDecodedFrame) :
    (repeatReady t d l).lf = storeRepeat t l := rfl
@[simp] theorem repeatReady_result (t : Ts) (d : DecodeState) (l : LastDecodedFrame) :
    (repeatReady t d l).result = .frameReady .repeatFrame l.address l.command := rfl
@[simp] theorem dataReady_dec (t : Ts) (d : DecodeState) :
    (dataReady t d).dec = d.clear := rfl
@[simp] theorem dataReady_lf (t : Ts) (d : DecodeState) :
    (dataReady t d).lf = storeData t d.buf := rfl
@[simp] theorem dataReady_result (t : Ts) (d : DecodeState) :
    (dataReady t d).result = .frameReady .dataFrame (bufAddress d.buf) (bufCommand d.buf) := rfl
@[simp] theorem abort_dec (cause : ErrorCause) (d : DecodeState) (l : LastDecodedFrame) :
    (abort cause d l).dec = d.clear := rfl
@[simp] theorem abort_lf (cause : ErrorCause) (d : DecodeState) (l : LastDecodedFrame) :
    (abort cause d l).lf = l := rfl
@[simp] theorem abort_result (cause : ErrorCause) (d : DecodeState) (l : LastDecodedFrame) :
    (abort cause d l).result = .error cause := rfl

end Sys2Proof.Machine
end

