-- ==== Sys2Proof/Laws/Ops.lean ====
section
/-!
SUPPORT. What each shared operation can do, said once: the integer operations, the buffer, the decoder's transition, the
tracker's transitions and the acceptance of an input.
-/

namespace Sys2Proof.Machine

/-! ## Integer operations and the buffer. -/

theorem truncTs_toNat (c : Config) (hc : c.tsW ≤ 32) (t : Ts) : (truncTs c t).toNat = t.toNat % 2 ^ c.tsW := by
  have hpow : 2 ^ c.tsW ≤ 2 ^ 32 := Nat.pow_le_pow_right (by omega) hc
  have hlt : t.toNat % 2 ^ c.tsW < 2 ^ c.tsW := Nat.mod_lt _ (by positivity)
  simp only [truncTs, BitVec.toNat_setWidth]
  exact Nat.mod_eq_of_lt (lt_of_lt_of_le hlt hpow)

theorem truncTs_fits (c : Config) (t : Ts) : timeFits c (truncTs c t) = true := by
  simp only [timeFits, truncTs, BitVec.toNat_setWidth, decide_eq_true_eq]
  exact lt_of_le_of_lt (Nat.mod_le _ _) (Nat.mod_lt _ (by positivity))

theorem truncTs_of_fits (c : Config) {t : Ts} (h : timeFits c t = true) : truncTs c t = t := by
  have h' : t.toNat < 2 ^ c.tsW := by simpa [timeFits] using h
  apply BitVec.eq_of_toNat_eq
  simp only [truncTs, BitVec.toNat_setWidth, Nat.mod_eq_of_lt h']
  exact Nat.mod_eq_of_lt t.isLt

theorem subTs_fits (c : Config) (a b : Ts) : timeFits c (subTs c a b) = true := truncTs_fits c _

@[simp] theorem timeFits_zero (c : Config) : timeFits c 0#32 = true := by simp [timeFits]

theorem satInc_toNat (x : Byte) : (satInc x).toNat = min (x.toNat + 1) 255 := by
  revert x; decide

theorem satInc_ne_zero (x : Byte) : satInc x ≠ 0 := by
  revert x; decide

theorem le_satInc (x : Byte) : x ≤ satInc x := by
  revert x; decide

theorem bitMask_getLsbD (k : BitVec 5) (i : Nat) : (bitMask k).getLsbD i = decide (i = 31 - k.toNat) := by
  have hk : k.toNat < 32 := k.isLt
  simp only [bitMask, BitVec.getLsbD_shiftLeft, BitVec.getLsbD_one]
  by_cases h : i = 31 - k.toNat
  · subst h
    simp
    omega
  · simp only [h, decide_false]
    simp
    omega

theorem bufSetBit_getLsbD (buf : BitVec 32) (k : BitVec 5) (b : Bool) (i : Nat) :
    (bufSetBit buf k b).getLsbD i = if i = 31 - k.toNat then b else buf.getLsbD i := by
  have hk : k.toNat < 32 := k.isLt
  by_cases hi : i < 32
  · cases b <;> by_cases h : i = 31 - k.toNat <;>
      simp only [bufSetBit, BitVec.getLsbD_or, BitVec.getLsbD_and, BitVec.getLsbD_not, bitMask_getLsbD, hi, h, decide_true,
        decide_false, Bool.not_true, Bool.not_false, Bool.and_true, Bool.and_false, Bool.or_true, Bool.or_false,
        if_true, if_false, Bool.false_eq_true]
  · have h : i ≠ 31 - k.toNat := by omega
    simp [h, BitVec.getLsbD_of_ge _ i (Nat.le_of_not_lt hi)]

/-! ## The configuration and the windows. -/

/-- The window test without its Bools. -/
theorem inWindow_iff (c : Config) (d : Ts) (m : Nat) :
    inWindow c d m = true ↔
      (c.tolDen - c.tolNum) * nominal c m < c.tolDen * d.toNat ∧
        c.tolDen * d.toNat < (c.tolDen + c.tolNum) * nominal c m := by
  simp only [inWindow, Bool.and_eq_true, decide_eq_true_eq]

theorem configLegal_tolerance {c : Config} (h : configLegal c = true) : 0 < c.tolNum ∧ 3 * c.tolNum ≤ c.tolDen := by
  simp only [configLegal, toleranceLegal, Bool.and_eq_true, decide_eq_true_eq] at h
  exact h.1.1.1.1

theorem configLegal_timeout {c : Config} (h : configLegal c = true) :
    (c.tolDen + c.tolNum) * tLeadMark c ≤ c.tolDen * tFrame c := by
  simp only [configLegal, timeoutLegal, Bool.and_eq_true, decide_eq_true_eq] at h
  exact h.1.1.1.2

theorem configLegal_range {c : Config} (h : configLegal c = true) :
    tFrame c < 2 ^ (c.tsW - 1) ∧ c.tRelease < 2 ^ (c.tsW - 1) := by
  simp only [configLegal, rangeLegal, Bool.and_eq_true, decide_eq_true_eq] at h
  exact h.1.1.2

theorem configLegal_window {c : Config} (h : configLegal c = true) :
    (c.tolDen + c.tolNum) * tLeadMark c < 2 ^ c.tsW * c.tolDen := by
  simp only [configLegal, windowLegal, Bool.and_eq_true, decide_eq_true_eq] at h
  exact h.1.2

theorem configLegal_width {c : Config} (h : configLegal c = true) : 0 < c.tsW ∧ c.tsW ≤ 32 := by
  simp only [configLegal, widthLegal, Bool.and_eq_true, decide_eq_true_eq] at h
  exact h.2

/-! ## The decoder. -/

/-- Everything `EDGE` can do to the decoder's registers once `last_edge_time` and the timeout are dealt with, as the rows of
41 R164. `e` is the decode state after steps 1 and 2. -/
inductive EdgeMove (c : Config) (m : Bool) (t dur : Ts) (e : DecodeState) (l : LastDecodedFrame) :
    EdgeOutcome → Prop where
  | ignored (hs : e.st = .idle) : EdgeMove c m t dur e l (pendingWith e l)
  | leadMark (hs : e.st = .idle) (hm : m = true) (hw : inWindow c dur c.mLeadMark = true) :
      EdgeMove c m t dur e l (pendingWith (enterLead e) l)
  | dataLead (hs : e.st = .receivingLead) (hm : m = false) (hw : classifyLeadSpace c dur = .dataLead) :
      EdgeMove c m t dur e l (pendingWith (startData e) l)
  | repeatFound (hs : e.st = .receivingLead) (hm : m = false) (hw : classifyLeadSpace c dur = .holding) :
      EdgeMove c m t dur e l (repeatReady t e l)
  | bitMark (hs : e.st = .receivingData) (hh : e.half = false) (hm : m = true) :
      EdgeMove c m t dur e l (pendingWith (keepMark dur e) l)
  | bitSpace (b : Bool) (hs : e.st = .receivingData) (hh : e.half = true) (hm : m = false) (hk : e.bitIndex < 31#5) :
      EdgeMove c m t dur e l (pendingWith (nextBit (putBit b e)) l)
  | dataFound (b : Bool) (hs : e.st = .receivingData) (hh : e.half = true) (hm : m = false)
      (hk : ¬ e.bitIndex < 31#5) (hg : complementGood (putBit b e).buf = true) :
      EdgeMove c m t dur e l (dataReady t (putBit b e))
  | aborted (cause : ErrorCause) (hs : e.st ≠ .idle) : EdgeMove c m t dur e l (abort cause e l)

theorem acceptBit_moves (c : Config) (b : Bool) (t dur : Ts) (e : DecodeState) (l : LastDecodedFrame)
    (hs : e.st = .receivingData) (hh : e.half = true) :
    EdgeMove c false t dur e l (acceptBit b t e l) := by
  unfold acceptBit completeFrame
  by_cases hk : e.bitIndex < 31#5
  · simpa [hk] using EdgeMove.bitSpace b hs hh rfl hk
  · cases hg : complementGood (putBit b e).buf
    · have hsame : abort .complement (putBit b e) l = abort .complement e l := rfl
      simpa [hk, hg, hsame] using
        EdgeMove.aborted (c := c) (m := false) (t := t) (dur := dur) (e := e) (l := l) .complement (by simp [hs])
    · simpa [hk, hg] using EdgeMove.dataFound b hs hh rfl hk hg

/-- The state rules of `EDGE` make no other move than those of `EdgeMove`. -/
theorem edgeDispatch_moves (c : Config) (m : Bool) (t dur : Ts) (e : DecodeState) (l : LastDecodedFrame) :
    EdgeMove c m t dur e l (edgeDispatch c m t dur e l) := by
  unfold edgeDispatch
  split
  · rename_i hs
    unfold edgeInIdle
    split
    · rename_i h
      rw [Bool.and_eq_true] at h
      exact .leadMark hs h.1 h.2
    · exact .ignored hs
  · rename_i hs
    have hne : e.st ≠ .idle := by simp [hs]
    unfold edgeInLead
    cases m
    · simp only [Bool.false_eq_true, if_false]
      split
      · rename_i h; exact .dataLead hs rfl h
      · rename_i h; exact .repeatFound hs rfl h
      · exact .aborted _ hne
    · exact .aborted _ hne
  · rename_i hs
    have hne : e.st ≠ .idle := by simp [hs]
    unfold edgeInData
    split
    · exact .aborted _ hne
    · rename_i hh; exact .bitMark hs hh rfl
    · exact .aborted _ hne
    · rename_i hh
      split
      · exact .aborted _ hne
      · exact acceptBit_moves c false t dur e l hs hh
      · exact acceptBit_moves c true t dur e l hs hh

/-- Steps 1 and 2 either only write `last_edge_time` or clear the decode state as well. -/
theorem edgePrepare_cases (c : Config) (t : Ts) (d : DecodeState) :
    (¬ tFrame c < (durationOf c d t).toNat ∧ edgePrepare c t d = { d with lastEdgeTime := t }) ∨
    (tFrame c < (durationOf c d t).toNat ∧
      edgePrepare c t d = DecodeState.clear { d with lastEdgeTime := t }) := by
  unfold edgePrepare frameTimeout
  by_cases h : tFrame c < (durationOf c d t).toNat <;> simp [h]

@[simp] theorem edgePrepare_lastEdgeTime (c : Config) (t : Ts) (d : DecodeState) :
    (edgePrepare c t d).lastEdgeTime = t := by
  rcases edgePrepare_cases c t d with ⟨_, e⟩ | ⟨_, e⟩ <;> simp [e]

/-- Within the timeout, steps 1 and 2 only write `last_edge_time`. -/
theorem edgePrepare_of_le {c : Config} {t : Ts} {d : DecodeState} (h : (durationOf c d t).toNat ≤ tFrame c) :
    edgePrepare c t d = { d with lastEdgeTime := t } := by
  rcases edgePrepare_cases c t d with ⟨_, e⟩ | ⟨h1, _⟩
  · exact e
  · omega

/-- `EDGE` always completes. -/
theorem execEdge_next (m : Bool) (t : Ts) (s : State) :
    execEdge m t s = .next
      (((s.setDec (edgeTransition s.cfg m t s.dec s.lf).dec).setLf (edgeTransition s.cfg m t s.dec s.lf).lf).answer
        .edge (edgeTransition s.cfg m t s.dec s.lf).result.reply) := rfl

/-! ## The tracker. -/

/-- Everything an accepted Data frame can do to a session, with the condition of each case. -/
theorem trackData_cases (b : ButtonSession) (x : Byte) (t : Ts) :
    ((fresh b = true ∨ (timedOut b = true ∧ b.relFlag = false)) ∧ trackData b x t = startPress b x t .noTimeout) ∨
    (fresh b = false ∧ timedOut b = true ∧ b.relFlag = true ∧ x = b.lastCommand ∧ trackData b x t = pressAgain b t) ∨
    (fresh b = false ∧ timedOut b = true ∧ b.relFlag = true ∧ x ≠ b.lastCommand ∧
      trackData b x t = startPress b x t .newButton) ∨
    (fresh b = false ∧ timedOut b = false ∧ x = b.lastCommand ∧ trackData b x t = { b with lastEventTime := t }) ∨
    (fresh b = false ∧ timedOut b = false ∧ x ≠ b.lastCommand ∧
      trackData b x t = raiseFlags (startPress b x t .newButton)) := by
  unfold trackData
  cases fresh b <;> cases timedOut b <;> cases b.relFlag <;> by_cases hx : x = b.lastCommand <;> simp [hx]

/-- Everything a Repeat frame can do to a session. -/
theorem trackRepeat_cases (b : ButtonSession) (t : Ts) :
    (active b = true ∧ trackRepeat b t = { b with holdCount := satInc b.holdCount, lastEventTime := t }) ∨
    (active b = false ∧ trackRepeat b t = b) := by
  unfold trackRepeat
  cases active b <;> simp

/-- Everything a frame can do to a session. -/
theorem trackFrame_cases (c : Config) (b : ButtonSession) (k : KindField) (a : Addr) (x : Byte) (t : Ts) :
    (k = .dataFrame ∧ filteredOut c a = false ∧ trackFrame c b k a x t = trackData b x t) ∨
    (k = .repeatFrame ∧ trackFrame c b k a x t = trackRepeat b t) ∨
    (trackFrame c b k a x t = b ∧ (k = .dataFrame → filteredOut c a = true) ∧ k ≠ .repeatFrame) := by
  cases k
  · right; right; exact ⟨rfl, by simp, by simp⟩
  · cases h : filteredOut c a
    · left; exact ⟨rfl, rfl, by simp [trackFrame, h]⟩
    · right; right; exact ⟨by simp [trackFrame, h], by simp, by simp⟩
  · right; left; exact ⟨rfl, rfl⟩
  · right; right; exact ⟨rfl, by simp, by simp⟩

/-- Everything a timeout check can do to a session. -/
theorem checkTimeout_cases (c : Config) (b : ButtonSession) (now : Ts) :
    (active b = true ∧ c.tRelease < (elapsedOf c b now).toNat ∧
      checkTimeout c b now = raiseFlags { b with timeoutType := .timeout }) ∨
    (¬ (active b = true ∧ c.tRelease < (elapsedOf c b now).toNat) ∧ checkTimeout c b now = b) := by
  unfold checkTimeout
  by_cases h : active b = true ∧ c.tRelease < (elapsedOf c b now).toNat
  · left; exact ⟨h.1, h.2, by simp [h.1, h.2]⟩
  · right; refine ⟨h, ?_⟩
    rw [if_neg]
    simpa using h

/-- The two branches of `BT_POLL`. -/
theorem execBtPoll_cases (now : Ts) (s : State) :
    (s.lf.pending = true ∧ execBtPoll now s = .next ((s.setLf (claimFrame s.lf)).trackTo
      (trackFrame s.cfg s.bt s.lf.kind.field s.lf.address s.lf.command s.lf.time))) ∨
    (s.lf.pending = false ∧ execBtPoll now s = .next (s.trackTo (checkTimeout s.cfg s.bt now))) := by
  unfold execBtPoll
  cases s.lf.pending <;> simp

/-! ## Acceptance. -/

/-- Everything the acceptance of an operation can answer. -/
theorem acceptCommand_cases (q : Interface) :
    (q.eIn = [] ∧ q.hIn = [] ∧ acceptCommand q = none) ∨
    (∃ cw rest, q.eIn = cw :: rest ∧ acceptCommand q = some (takeEdge q cw rest)) ∨
    (∃ cw rest, q.hIn = cw :: rest ∧ acceptCommand q = some (takeHost q cw rest)) := by
  unfold acceptCommand
  split
  · rename_i h1 h2; left; exact ⟨h1, h2, rfl⟩
  · rename_i cw rest h1 h2; right; left; exact ⟨cw, rest, h1, rfl⟩
  · rename_i cw rest h1 h2; right; right; exact ⟨cw, rest, h2, rfl⟩
  · rename_i ew er hw hr h1 h2
    by_cases h : Config.edgeFirst q.turn = true
    · right; left; exact ⟨ew, er, h1, by simp [h]⟩
    · right; right; exact ⟨hw, hr, h2, by simp [h]⟩

/-- Everything the acceptance of an input can answer. -/
theorem acceptInput_cases (q : Interface) :
    acceptInput q = acceptCommand q ∨ ∃ rest, q.rstIn = rest + 1 ∧ acceptInput q = some (takeReset q rest) := by
  unfold acceptInput
  split
  · left; rfl
  · rename_i rest h
    split
    · right; exact ⟨rest, h, rfl⟩
    · rename_i accepted ha
      by_cases hr : Config.resetFirst q.turn = true
      · right; exact ⟨rest, h, by simp [hr]⟩
      · left; simp [hr, ha]

/-! ## Runs. -/

/-- A run whose first step is known goes on from the state after it. -/
theorem run_succ_of_next {k : Nat} {s u : State} (h : step s = .next u) :
    Host.Core.run Sys2Proof.core (k + 1) s = Host.Core.run Sys2Proof.core k u := by
  simp [Host.Core.run, Sys2Proof.core, h]

end Sys2Proof.Machine
end

