-- ==== Sys2Proof/Laws/Words.lean ====
section
/-!
SUPPORT. What each field of a command word (30_encoding R99) and of a response word (R101) reads as.
-/

namespace Sys2Proof

/-- A field that lies in the lower part of a concatenation. -/
theorem extract_append_low {n k s l : Nat} (x : BitVec n) (y : BitVec k) (h : s + l ≤ k) :
    (x ++ y).extractLsb' s l = y.extractLsb' s l := by
  ext j hj
  simp [BitVec.getLsbD_append]
  omega

/-- A field that lies in the upper part of a concatenation. -/
theorem extract_append_high {n k s l : Nat} (x : BitVec n) (y : BitVec k) (h : k ≤ s) :
    (x ++ y).extractLsb' s l = x.extractLsb' (s - k) l := by
  ext j hj
  simp [BitVec.getLsbD_append]
  rw [if_neg (by omega)]
  congr 1
  omega

/-- The whole of a bit vector as a field. -/
theorem extract_all {n : Nat} (x : BitVec n) : x.extractLsb' 0 n = x := by simp

/-- A bit that lies in the lower part of a concatenation. -/
theorem getLsbD_append_low {n k i : Nat} (x : BitVec n) (y : BitVec k) (h : i < k) :
    (x ++ y).getLsbD i = y.getLsbD i := by
  simp [BitVec.getLsbD_append, h]

/-- A bit that lies in the upper part of a concatenation. -/
theorem getLsbD_append_high {n k i : Nat} (x : BitVec n) (y : BitVec k) (h : k ≤ i) :
    (x ++ y).getLsbD i = x.getLsbD (i - k) := by
  simp [BitVec.getLsbD_append, Nat.not_lt.mpr h]

/-! ## Command words. -/

@[simp] theorem opcodeOf_formatN (op : BitVec 4) :
    opcodeOf (formatN op) = op := by
  unfold opcodeOf formatN
  simp (disch := omega) only [extract_append_high]
  exact extract_all _

@[simp] theorem opcodeOf_formatE (op : BitVec 4) (m : Bool) (t : Ts) :
    opcodeOf (formatE op m t) = op := by
  unfold opcodeOf formatE
  simp (disch := omega) only [extract_append_high]
  exact extract_all _

@[simp] theorem opcodeOf_formatT (op : BitVec 4) (t : Ts) :
    opcodeOf (formatT op t) = op := by
  unfold opcodeOf formatT
  simp (disch := omega) only [extract_append_high]
  exact extract_all _

@[simp] theorem opcodeOf_formatF (op : BitVec 4) (k : KindField) (a : Addr) (x : Byte) (t : Ts) :
    opcodeOf (formatF op k a x t) = op := by
  unfold opcodeOf formatF
  simp (disch := omega) only [extract_append_high]
  exact extract_all _

@[simp] theorem opcodeOf_formatD (op : BitVec 4) (x : Byte) :
    opcodeOf (formatD op x) = op := by
  unfold opcodeOf formatD
  simp (disch := omega) only [extract_append_high]
  exact extract_all _

@[simp] theorem timeField_formatE (c : Config) (op : BitVec 4) (m : Bool) (t : Ts) :
    timeField c (formatE op m t) = truncTs c t := by
  unfold timeField formatE
  simp (disch := omega) only [extract_append_low]
  exact congrArg (truncTs c) (extract_all t)

@[simp] theorem timeField_formatT (c : Config) (op : BitVec 4) (t : Ts) :
    timeField c (formatT op t) = truncTs c t := by
  unfold timeField formatT
  simp (disch := omega) only [extract_append_low]
  exact congrArg (truncTs c) (extract_all t)

@[simp] theorem timeField_formatF (c : Config) (op : BitVec 4) (k : KindField) (a : Addr) (x : Byte) (t : Ts) :
    timeField c (formatF op k a x t) = truncTs c t := by
  unfold timeField formatF
  simp (disch := omega) only [extract_append_low]
  exact congrArg (truncTs c) (extract_all t)

@[simp] theorem isMarkField_formatE (op : BitVec 4) (m : Bool) (t : Ts) :
    isMarkField (formatE op m t) = m := by
  unfold isMarkField formatE
  rw [getLsbD_append_high _ _ (by omega), getLsbD_append_low _ _ (by omega)]
  cases m <;> rfl

@[simp] theorem KindField.ofBits_bits (k : KindField) : KindField.ofBits k.bits = k := by
  cases k <;> rfl

@[simp] theorem kindField_formatF (op : BitVec 4) (k : KindField) (a : Addr) (x : Byte) (t : Ts) :
    kindField (formatF op k a x t) = k := by
  unfold kindField formatF
  simp (disch := omega) only [extract_append_high, extract_append_low]
  exact (congrArg KindField.ofBits (extract_all k.bits)).trans (KindField.ofBits_bits k)

@[simp] theorem addressField_formatF (op : BitVec 4) (k : KindField) (a : Addr) (x : Byte) (t : Ts) :
    addressField (formatF op k a x t) = a := by
  unfold addressField formatF
  simp (disch := omega) only [extract_append_high, extract_append_low]
  exact extract_all _

@[simp] theorem commandField_formatF (op : BitVec 4) (k : KindField) (a : Addr) (x : Byte) (t : Ts) :
    commandField (formatF op k a x t) = x := by
  unfold commandField formatF
  simp (disch := omega) only [extract_append_high, extract_append_low]
  exact extract_all _

@[simp] theorem debounceField_formatD (op : BitVec 4) (x : Byte) :
    debounceField (formatD op x) = x := by
  unfold debounceField formatD
  simp (disch := omega) only [extract_append_low]
  exact extract_all _

/-! ## Response words. -/

namespace Machine

@[simp] theorem illOf_word (r : Reply) : illOf r.word = r.ill := by
  unfold illOf Reply.word
  rw [getLsbD_append_high _ _ (by omega), getLsbD_append_high _ _ (by omega), getLsbD_append_high _ _ (by omega),
    getLsbD_append_high _ _ (by omega), getLsbD_append_high _ _ (by omega), getLsbD_append_high _ _ (by omega),
    getLsbD_append_high _ _ (by omega)]
  cases r.ill <;> rfl

@[simp] theorem bit60_word (r : Reply) : r.word.getLsbD 60 = false := by
  unfold Reply.word
  rw [getLsbD_append_high _ _ (by omega), getLsbD_append_high _ _ (by omega), getLsbD_append_high _ _ (by omega),
    getLsbD_append_high _ _ (by omega), getLsbD_append_high _ _ (by omega), getLsbD_append_low _ _ (by omega)]
  rfl

@[simp] theorem dresOf_word (r : Reply) :
    dresOf r.word = r.dres := by
  unfold dresOf Reply.word
  simp (disch := omega) only [extract_append_high, extract_append_low]
  exact extract_all _

@[simp] theorem kindOf_word (r : Reply) :
    kindOf r.word = r.kind := by
  unfold kindOf Reply.word
  simp (disch := omega) only [extract_append_high, extract_append_low]
  exact extract_all _

@[simp] theorem addressOf_word (r : Reply) :
    addressOf r.word = r.address := by
  unfold addressOf Reply.word
  simp (disch := omega) only [extract_append_high, extract_append_low]
  exact extract_all _

@[simp] theorem commandOf_word (r : Reply) :
    commandOf r.word = r.command := by
  unfold commandOf Reply.word
  simp (disch := omega) only [extract_append_high, extract_append_low]
  exact extract_all _

@[simp] theorem causeOf_word (r : Reply) :
    causeOf r.word = r.cause := by
  unfold causeOf Reply.word
  simp (disch := omega) only [extract_append_high, extract_append_low]
  exact extract_all _

@[simp] theorem valueOf_word (r : Reply) :
    valueOf r.word = r.value := by
  unfold valueOf Reply.word
  simp (disch := omega) only [extract_append_low]
  exact extract_all _

end Machine

end Sys2Proof
end

