-- ==== Sys2Proof/Laws/PerInstr.lean ====
section
/-!
SUPPORT. Per operation: the port and the opcode of its canonical word are those of its row of 30_encoding R100.
-/

namespace Sys2Proof.Laws.EncodedRow

/-- The row of R100: port and opcode. -/
def row : Instr → Port × BitVec 4
  | .illegal port => (port, 0x0)
  | .edge _ _ => (.edge, 0x1)
  | .fdAvail => (.host, 0x2)
  | .fdRead => (.host, 0x3)
  | .fdTimeout _ => (.host, 0x4)
  | .fdLastEvt => (.host, 0x5)
  | .btFrame _ _ _ _ => (.host, 0x6)
  | .btChkTo _ => (.host, 0x7)
  | .btPoll _ => (.host, 0x8)
  | .btCmd => (.host, 0x9)
  | .btPressCnt => (.host, 0xA)
  | .btHoldCnt _ => (.host, 0xB)
  | .btPressTo => (.host, 0xC)
  | .btRelease => (.host, 0xD)
  | .btToType => (.host, 0xE)
  | .btReset => (.host, 0xF)

/-- The canonical word carries its row's opcode and is presented on its row's port. -/
def Statement (i : Instr) : Prop := ((encode i).1, opcodeOf (encode i).2) = row i

theorem illegal (port : Port) : Statement (.illegal port) := by simp [Statement, encode, row]
theorem edge (m : Bool) (t : Ts) : Statement (.edge m t) := by simp [Statement, encode, row]
theorem fdAvail : Statement .fdAvail := by simp [Statement, encode, row]
theorem fdRead : Statement .fdRead := by simp [Statement, encode, row]
theorem fdTimeout (now : Ts) : Statement (.fdTimeout now) := by simp [Statement, encode, row]
theorem fdLastEvt : Statement .fdLastEvt := by simp [Statement, encode, row]
theorem btFrame (k : KindField) (a : Addr) (x : Byte) (t : Ts) : Statement (.btFrame k a x t) := by
  simp [Statement, encode, row]
theorem btChkTo (now : Ts) : Statement (.btChkTo now) := by simp [Statement, encode, row]
theorem btPoll (now : Ts) : Statement (.btPoll now) := by simp [Statement, encode, row]
theorem btCmd : Statement .btCmd := by simp [Statement, encode, row]
theorem btPressCnt : Statement .btPressCnt := by simp [Statement, encode, row]
theorem btHoldCnt (x : Byte) : Statement (.btHoldCnt x) := by simp [Statement, encode, row]
theorem btPressTo : Statement .btPressTo := by simp [Statement, encode, row]
theorem btRelease : Statement .btRelease := by simp [Statement, encode, row]
theorem btToType : Statement .btToType := by simp [Statement, encode, row]
theorem btReset : Statement .btReset := by simp [Statement, encode, row]

end Sys2Proof.Laws.EncodedRow
end

