-- ==== Sys2Proof/Machine/Text.lean ====
section
/-!
DEFINITION. The textual syntax of operations (30_encoding R114), which the block never sees: a line names a port, a
mnemonic and its operands, and stands for a command word presented on that port. The port is the line's, so a line may
put an operation on the wrong port, where the block answers ILL.
-/

namespace Sys2Proof.Machine

/-- The characters between operands. -/
def isSeparator (ch : Char) : Bool := ch == ' ' || ch == ','

/-- The pieces between separators, read from the right: the piece being read and the pieces after it. -/
def splitPieces : List Char → List Char × List (List Char)
  | [] => ([], [])
  | ch :: rest =>
    if isSeparator ch then ([], (splitPieces rest).1 :: (splitPieces rest).2)
    else (ch :: (splitPieces rest).1, (splitPieces rest).2)

/-- The words of a line: `;` starts a comment, separators delimit, and a `->` documents the expected response. -/
def lineWords (line : String) : List (List Char) :=
  let pieces := splitPieces (line.toList.takeWhile (· != ';'))
  ((pieces.1 :: pieces.2).filter (· != [])).takeWhile (· != ['-', '>'])

/-- The value of a digit below `base`. -/
def digitValue (base : Nat) (ch : Char) : Option Nat :=
  let v := if '0' ≤ ch && ch ≤ '9' then ch.toNat - '0'.toNat
    else if 'a' ≤ ch && ch ≤ 'f' then ch.toNat - 'a'.toNat + 10
    else if 'A' ≤ ch && ch ≤ 'F' then ch.toNat - 'A'.toNat + 10
    else base
  if v < base then some v else none

/-- A run of digits, most significant first, after `acc`. -/
def digitsValue (base acc : Nat) : List Char → Option Nat
  | [] => some acc
  | ch :: rest =>
    match digitValue base ch with
    | none => none
    | some v => digitsValue base (acc * base + v) rest

/-- A number, decimal or `0x` hexadecimal. -/
def numberOf : List Char → Option Nat
  | [] => none
  | '0' :: 'x' :: ch :: rest => digitsValue 16 0 (ch :: rest)
  | ch :: rest => digitsValue 10 0 (ch :: rest)

/-- A number below `2^n`, as an `n`-bit operand. -/
def operandOf (n : Nat) (w : List Char) : Option (BitVec n) :=
  match numberOf w with
  | none => none
  | some v => if v < 2 ^ n then some (BitVec.ofNat n v) else none

/-- The port a line names. -/
def portNamed (w : List Char) : Option Port :=
  if w = ['E', ':'] then some .edge else if w = ['H', ':'] then some .host else none

/-- `<kind>`: one of the three names, or 0..3. -/
def kindNamed (w : List Char) : Option KindField :=
  if w = "NoProtocol".toList then some .noProtocol
  else if w = "Data".toList then some .dataFrame
  else if w = "Repeat".toList then some .repeatFrame
  else (operandOf 2 w).map KindField.ofBits

/-- The N-format operations by mnemonic. -/
def plainNamed (w : List Char) : Option Instr :=
  if w = "FD_AVAIL".toList then some .fdAvail
  else if w = "FD_READ".toList then some .fdRead
  else if w = "FD_LASTEVT".toList then some .fdLastEvt
  else if w = "BT_CMD".toList then some .btCmd
  else if w = "BT_PRESSCNT".toList then some .btPressCnt
  else if w = "BT_PRESSTO".toList then some .btPressTo
  else if w = "BT_RELEASE".toList then some .btRelease
  else if w = "BT_TOTYPE".toList then some .btToType
  else if w = "BT_RESET".toList then some .btReset
  else none

/-- The operations of one operand. -/
def unaryNamed (w operand : List Char) : Option Instr :=
  if w = "FD_TIMEOUT".toList then (operandOf 32 operand).map .fdTimeout
  else if w = "BT_CHKTO".toList then (operandOf 32 operand).map .btChkTo
  else if w = "BT_POLL".toList then (operandOf 32 operand).map .btPoll
  else if w = "BT_HOLDCNT".toList then (operandOf 8 operand).map .btHoldCnt
  else none

/-- `EDGE <isMark>, <timestamp>`. -/
def edgeNamed (w isMark timestamp : List Char) : Option Instr :=
  if w = "EDGE".toList then
    match operandOf 1 isMark, operandOf 32 timestamp with
    | some m, some t => some (.edge (m == 1) t)
    | _, _ => none
  else none

/-- `BT_FRAME <kind>, <address>, <command>, <t>`. -/
def frameNamed (w kind address command t : List Char) : Option Instr :=
  if w = "BT_FRAME".toList then
    match kindNamed kind, operandOf 16 address, operandOf 8 command, operandOf 32 t with
    | some k, some a, some x, some at' => some (.btFrame k a x at')
    | _, _, _, _ => none
  else none

/-- The operation after the port of a line. -/
def operationNamed : List (List Char) → Option Instr
  | [w] => plainNamed w
  | [w, x] => unaryNamed w x
  | [w, x, y] => edgeNamed w x y
  | [w, k, a, x, t] => frameNamed w k a x t
  | _ => none

/-- The port and the command word a line stands for; none for a line that is not of the syntax or whose time does not
fit `TS_W`. -/
def assembleLine (c : Config) (line : String) : Option (Port × Word) :=
  match lineWords line with
  | [] => none
  | p :: rest =>
    match portNamed p, operationNamed rest with
    | some port, some i => if i.wellFormed c then some (port, (encode i).2) else none
    | _, _ => none

/-- The mnemonic of an operation (R100). -/
def mnemonicOf : Instr → String
  | .illegal _ => "ILLEGAL"
  | .edge _ _ => "EDGE"
  | .fdAvail => "FD_AVAIL"
  | .fdRead => "FD_READ"
  | .fdTimeout _ => "FD_TIMEOUT"
  | .fdLastEvt => "FD_LASTEVT"
  | .btFrame _ _ _ _ => "BT_FRAME"
  | .btChkTo _ => "BT_CHKTO"
  | .btPoll _ => "BT_POLL"
  | .btCmd => "BT_CMD"
  | .btPressCnt => "BT_PRESSCNT"
  | .btHoldCnt _ => "BT_HOLDCNT"
  | .btPressTo => "BT_PRESSTO"
  | .btRelease => "BT_RELEASE"
  | .btToType => "BT_TOTYPE"
  | .btReset => "BT_RESET"

/-- A number in decimal. -/
def decimal (n : Nat) : String := String.ofList (Nat.toDigits 10 n)

/-- The operands of an operation as text, in the order of its format (R114). -/
def operandText : Instr → String
  | .edge isMark timestamp => (if isMark then " 1, " else " 0, ") ++ decimal timestamp.toNat
  | .fdTimeout now => " " ++ decimal now.toNat
  | .btFrame kind address command t =>
    " " ++ decimal kind.bits.toNat ++ ", " ++ decimal address.toNat ++ ", " ++ decimal command.toNat ++ ", " ++
      decimal t.toNat
  | .btChkTo now => " " ++ decimal now.toNat
  | .btPoll now => " " ++ decimal now.toNat
  | .btHoldCnt debounce => " " ++ decimal debounce.toNat
  | .illegal _ | .fdAvail | .fdRead | .fdLastEvt | .btCmd | .btPressCnt | .btPressTo | .btRelease | .btToType
  | .btReset => ""

/-- The line of an operation presented on a port (R114). -/
def renderLine (p : Port) (i : Instr) : String :=
  (match p with | .edge => "E: " | .host => "H: ") ++ mnemonicOf i ++ operandText i

end Sys2Proof.Machine
end

