-- ==== Sys2Proof/Tests/Slice0.lean ====
section
/-!
SUPPORT. The model's own tests. Every expected value comes from the spec: a vector of 95_test_vectors (named in the comment),
an example of a rule, or a word written out from the field table of 30_encoding R99. Then, for every obligation with
hypotheses, a witness that meets them, at the boundary of each range.
-/

namespace Sys2Proof.Tests

open Sys2Proof.Machine

/-! ## Helpers. -/

/-- The state after a step that accepts one command word and nothing else. -/
def after (s : State) (p : Port) (cw : Word) : Option State :=
  match step (s.setIo (presentAlone s.io p cw)) with
  | .next u => some u
  | .fault _ => none
  | .refused _ => none

/-- The response word. -/
def rw (u : State) : Option Word := u.io.response.map fun r => r.word

/-- A state with a decode state and otherwise reset. -/
def withDec (d : DecodeState) : State := State.reset.setDec d

/-- A state with a frame register and otherwise reset. -/
def withLf (l : LastDecodedFrame) : State := State.reset.setLf l

/-- A state with a session and otherwise reset. -/
def withBt (b : ButtonSession) : State := State.reset.setBt b

/-- A decode state inside the data bits. -/
def inData (half : Bool) (k : BitVec 5) (buf : BitVec 32) (markDur last : Ts) : DecodeState :=
  { st := .receivingData, half := half, bitIndex := k, buf := buf, markDur := markDur, lastEdgeTime := last }

/-- A decode state after a lead mark. -/
def inLead (last : Ts) : DecodeState := { DecodeState.reset with st := .receivingLead, lastEdgeTime := last }

/-- A session of command 5. -/
def session (press hold : Byte) (how : TimeoutType) (last : Ts) (rel tof : Bool) : ButtonSession :=
  { lastCommand := 5, pressCount := press, holdCount := hold, timeoutType := how, lastEventTime := last, relFlag := rel,
    toFlag := tof }

/-- The frame of FD3: address 0x00FF, command 0x10, completed at 1 067 680, pending. -/
def heldFrame (pending : Bool) : LastDecodedFrame :=
  { kind := .dataFrame, address := 0x00FF, command := 0x10, time := 1067680, pending := pending }

/-- A configuration with 16-bit timestamps. -/
def narrow : Config := { Config.standard with tsW := 16 }

/-- The default configuration with the address filter on. -/
def filtered : Config := { Config.standard with filterEn := true, filterAddr := 0x00FF }

/-! ## Well-formedness: each check refuses an ill-formed operation (30_encoding R99, R102). -/

theorem test_wf_edge : (Instr.edge true 0x10000).wellFormed narrow = false := by decide
theorem test_wf_fdTimeout : (Instr.fdTimeout 0x10000).wellFormed narrow = false := by decide
theorem test_wf_btFrame : (Instr.btFrame .dataFrame 0 0 0x10000).wellFormed narrow = false := by decide
theorem test_wf_btChkTo : (Instr.btChkTo 0x10000).wellFormed narrow = false := by decide
theorem test_wf_btPoll : (Instr.btPoll 0x10000).wellFormed narrow = false := by decide
theorem test_wf_accepts : (Instr.btPoll 0xFFFF).wellFormed narrow = true := by decide

/-! ## Decoding: words written out from R99 and R100. -/

-- ED2: opcode 0x1 in 63:60, isMark in 32, timestamp 10024 in 31:0
theorem test_decode_edge : decode .standard .edge 0x1000000100002728#64 = .edge true 10024 := by decide
-- ED29: reserved bits 59:33 set
theorem test_decode_edge_reserved : decode .standard .edge 0x1FFFFFFE000038C8#64 = .edge false 14536 := by decide
theorem test_decode_fdAvail : decode .standard .host 0x2000000000000000#64 = .fdAvail := by decide
theorem test_decode_fdRead : decode .standard .host 0x3000000000000000#64 = .fdRead := by decide
-- FD6
theorem test_decode_fdTimeout : decode .standard .host 0x400000000010C8E0#64 = .fdTimeout 1100000 := by decide
theorem test_decode_fdLastEvt : decode .standard .host 0x5000000000000000#64 = .fdLastEvt := by decide
-- BT5: kind 3 in 59:58, address 0x1234 in 57:42, command 0x56 in 41:34, t 1000
theorem test_decode_btFrame :
    decode .standard .host 0x6C48D158000003E8#64 = .btFrame .reserved 0x1234 0x56 1000 := by decide
-- BT6: kind 1
theorem test_decode_btFrame_data :
    decode .standard .host 0x6400001400009C40#64 = .btFrame .dataFrame 0 5 40000 := by decide
-- BT21, BT28
theorem test_decode_btChkTo : decode .standard .host 0x700000000005B4E8#64 = .btChkTo 373992 := by decide
theorem test_decode_btPoll : decode .standard .host 0x80000000001053B0#64 = .btPoll 1070000 := by decide
theorem test_decode_btCmd : decode .standard .host 0x9000000000000000#64 = .btCmd := by decide
theorem test_decode_btPressCnt : decode .standard .host 0xA000000000000000#64 = .btPressCnt := by decide
-- BT48: reserved bits 59:8 set
theorem test_decode_btHoldCnt : decode .standard .host 0xBFFFFFFFFFFFFF01#64 = .btHoldCnt 1 := by decide
theorem test_decode_btPressTo : decode .standard .host 0xC000000000000000#64 = .btPressTo := by decide
theorem test_decode_btRelease : decode .standard .host 0xD000000000000000#64 = .btRelease := by decide
theorem test_decode_btToType : decode .standard .host 0xE000000000000000#64 = .btToType := by decide
theorem test_decode_btReset : decode .standard .host 0xF000000000000000#64 = .btReset := by decide
-- IL2, IL3, IL5
theorem test_decode_illegal_opcode0 : decode .standard .host 0x0FFFFFFFFFFFFFFF#64 = .illegal .host := by decide
theorem test_decode_illegal_edge : decode .standard .host 0x10000001000038C8#64 = .illegal .host := by decide
theorem test_decode_illegal_host : decode .standard .edge 0x3000000000000000#64 = .illegal .edge := by decide
-- R99: with TS_W = 16 the time field is cw[15:0]
theorem test_decode_narrow : decode narrow .host 0x40000000FFFF1234#64 = .fdTimeout 0x1234 := by decide

/-- A word numbered as the opcode table numbers it is presented on the port of its opcode. -/
theorem test_table_word : decodeTableWord 64 0x1000000100002728 = some (.edge true 10024) := by decide

theorem test_fetch_word :
    (State.reset.withFetchWord 64 0x9000000000000000).io.hIn = [0x9000000000000000#64] ∧
      (State.reset.withFetchWord 64 0x1000000100002728).io.eIn = [0x1000000100002728#64] := by decide

/-! ## The classifier (PC1, PC4, CB10, CB5, R135). -/

theorem test_window_edges :
    inWindow .standard 6768 16 = false ∧ inWindow .standard 6769 16 = true ∧ inWindow .standard 704 1 = true ∧
      inWindow .standard 705 1 = false := by decide

theorem test_classify_bit :
    classifyBit .standard 704 1270 = .one ∧ classifyBit .standard 564 705 = .invalid ∧
      classifyBit .standard 423 564 = .invalid ∧ classifyBit .standard 424 704 = .zero := by decide

theorem test_classify_lead :
    classifyLeadSpace .standard 2819 = .holding ∧ classifyLeadSpace .standard 2820 = .neither ∧
      classifyLeadSpace .standard 3385 = .dataLead := by decide

/-! ## One step of each operation. -/

-- IL1: answered ILL; IL4 in the middle of a frame
theorem test_illegal :
    (after (withDec (inLead 10024)) .edge 0x9000000000000000#64).map (fun u => (rw u, u.dec)) =
      some (some 0x8000000000000000#64, inLead 10024) := by decide

-- ED23: the last bit completes the frame
theorem test_edge_completes :
    (after (withDec (inData true 31 0xFF0010EE 564 70000)) .edge 0x100000000001180C#64).map (fun u => (rw u, u.lf)) =
      some (some 0x2403FC4000000000#64,
        { kind := .dataFrame, address := 0x00FF, command := 0x10, time := 71692, pending := true }) := by decide

-- ED18: data bit 5 = 1 sets buf[26]
theorem test_edge_bit :
    (after (withDec (inData true 5 0xA8000000 564 20564)) .edge 0x10000000000056F0#64).map (fun u => (rw u, u.dec)) =
      some (some 0, inData false 6 0xAC000000 0 22256) := by decide

-- FD1, FD3
theorem test_fdAvail_none : (after State.reset .host 0x2000000000000000#64).map rw = some (some 0) := by decide
theorem test_fdAvail_one : (after (withLf (heldFrame true)) .host 0x2000000000000000#64).map rw = some (some 1) := by decide

-- FD4, FD5
theorem test_fdRead_claims :
    (after (withLf (heldFrame true)) .host 0x3000000000000000#64).map (fun u => (rw u, u.lf)) =
      some (some 0x0403FC4000104AA0#64, heldFrame false) := by decide
theorem test_fdRead_again :
    (after (withLf (heldFrame false)) .host 0x3000000000000000#64).map rw = some (some 0x0000000000104AA0#64) := by decide

-- FD6, FD7
theorem test_fdTimeout :
    (after (withLf (heldFrame true)) .host 0x400000000010C8E0#64).map rw = some (some 0x0000000000007E40#64) := by decide
theorem test_fdTimeout_stale :
    (after (withLf (heldFrame true)) .host 0x40000000000F4240#64).map rw = some (some 0x00000000FFFEF7A0#64) := by decide

-- FD9
theorem test_fdLastEvt :
    (after (withLf (heldFrame true)) .host 0x5000000000000000#64).map rw = some (some 0x0000000000104AA0#64) := by decide

-- BT7: another key while a press is active
theorem test_btFrame_newButton :
    (after (withBt (session 2 7 .noTimeout 10000 false false)) .host 0x640000240000C350#64).map (fun u => (rw u, u.bt)) =
      some (some 0x0000000003000109#64,
        { lastCommand := 9, pressCount := 1, holdCount := 0, timeoutType := .newButton, lastEventTime := 50000,
          relFlag := true, toFlag := true }) := by decide

-- BT13: press_count saturates
theorem test_btFrame_saturates :
    (after (withBt (session 255 2 .timeout 220000 true true)) .host 0x64000014000DBBA0#64).map (fun u => (rw u, u.bt)) =
      some (some 0x000000000200FF05#64, session 255 0 .nextButton 900000 true true) := by decide

-- BT21, BT22: elapsed = T_RELEASE and one more
theorem test_btChkTo_not_yet :
    (after (withBt (session 1 2 .noTimeout 220000 false false)) .host 0x700000000005B4E8#64).map (fun u => u.bt) =
      some (session 1 2 .noTimeout 220000 false false) := by decide
theorem test_btChkTo_release :
    (after (withBt (session 1 2 .noTimeout 220000 false false)) .host 0x700000000005B4E9#64).map (fun u => (rw u, u.bt)) =
      some (some 0x0000000001020105#64, session 1 2 .timeout 220000 true true) := by decide

-- BT28: the event time is lf_time, not now
theorem test_btPoll_claims :
    (after (withLf (heldFrame true)) .host 0x80000000001053B0#64).map
        (fun u => (rw u, u.bt.lastEventTime, u.lf.pending)) =
      some (some 0x0000000000000110#64, 1067680, false) := by decide

-- BT39, BT40, BT41
theorem test_btCmd :
    (after (withBt (session 1 2 .timeout 220000 true true)) .host 0x9000000000000000#64).map rw = some (some 5) := by decide
theorem test_btPressCnt :
    (after (withBt (session 1 2 .timeout 220000 true true)) .host 0xA000000000000000#64).map rw = some (some 1) := by decide
theorem test_btToType :
    (after (withBt (session 1 2 .timeout 220000 true true)) .host 0xE000000000000000#64).map rw = some (some 1) := by decide

-- BT33, BT34
theorem test_btHoldCnt_above :
    (after (withBt (session 1 2 .noTimeout 220000 false false)) .host 0xB000000000000001#64).map rw =
      some (some 2) := by decide
theorem test_btHoldCnt_at :
    (after (withBt (session 1 2 .noTimeout 220000 false false)) .host 0xB000000000000002#64).map rw =
      some (some 0) := by decide

-- BT42, BT44
theorem test_btPressTo :
    (after (withBt (session 1 2 .timeout 220000 true true)) .host 0xC000000000000000#64).map (fun u => (rw u, u.bt)) =
      some (some 1, session 1 2 .timeout 220000 true false) := by decide
theorem test_btRelease :
    (after (withBt (session 1 2 .timeout 220000 true false)) .host 0xD000000000000000#64).map (fun u => (rw u, u.bt)) =
      some (some 1, session 1 2 .timeout 220000 false false) := by decide

-- BT46: the pending frame stays
theorem test_btReset :
    (after ((withBt (session 1 2 .timeout 220000 true true)).setLf (heldFrame true)) .host 0xF000000000000000#64).map
        (fun u => (rw u, u.bt, u.lf)) =
      some (some 0, ButtonSession.reset, heldFrame true) := by decide

/-! ## The wire format and the text (R94, R114, R115). -/

-- P1, row 67 (edge 67): FrameReady at 1 067 680
set_option maxRecDepth 8000 in
theorem test_wire_edge67 :
    (edgeStream .standard 1000000 (encodeFrame .standard 0x00FF 0x10))[66]? = some (false, 1067680) := by decide

set_option maxRecDepth 8000 in
theorem test_text_btFrame :
    assembleLine .standard "H: BT_FRAME Data, 0x0000, 0x05, 40000" = some (.host, 0x6400001400009C40#64) := by decide
set_option maxRecDepth 8000 in
theorem test_text_edge :
    assembleLine .standard "E: EDGE 1, 10024 -> Pending" = some (.edge, 0x1000000100002728#64) := by decide
set_option maxRecDepth 8000 in
theorem test_text_wrong_port :
    (assembleLine .standard "H: EDGE 1, 14536").map (fun l => decode .standard l.1 l.2) = some (.illegal .host) := by decide

/-! ## Witnesses: for each obligation with hypotheses, data that meet all of them together, one per clause. -/

/-- A state with words presented. -/
def presenting (es hs : List Word) (n : Nat) : State :=
  State.reset.setIo { Interface.reset with eIn := es, hIn := hs, rstIn := n }

-- the widest operands
theorem witness_DecodeReadsBackEveryOperation :
    (Instr.btFrame .reserved 0xFFFF 0xFF 0xFFFFFFFF).wellFormed .standard = true ∧
      (Instr.edge true 0xFFFF).wellFormed narrow = true := by decide

theorem witness_ReservedBitsAreIgnored :
    Config.standard.tsW ≤ 32 ∧
      0xBFFFFFFFFFFFFF01#64 &&& namedBits .standard (opcodeOf 0xBFFFFFFFFFFFFF01#64) =
        0xB000000000000001#64 &&& namedBits .standard (opcodeOf 0xBFFFFFFFFFFFFF01#64) ∧
      (Instr.btHoldCnt 1).wellFormed .standard = true := by decide

theorem witness_StepPerformsTheDecodedOperation :
    configLegal (presenting [0x1000000000000000#64] [] 0).cfg = true ∧
      (presenting [0x1000000000000000#64] [] 0).io.rstIn = 0 ∧
      (presenting [0x1000000000000000#64] [] 0).io.eIn = [0x1000000000000000#64] ∧
      (presenting [0x1000000000000000#64] [] 0).io.hIn = [] ∧
      (presenting [] [0xF000000000000000#64] 0).io.hIn = [0xF000000000000000#64] ∧
      (presenting [] [0xF000000000000000#64] 0).io.eIn = [] ∧
      (presenting [] [] 0).io.eIn = [] ∧ (presenting [] [] 0).io.hIn = [] := by decide

theorem witness_SimultaneousWordsAreTakenInEitherOrder :
    configLegal (presenting [0x1000000000000000#64] [0x2000000000000000#64] 0).cfg = true ∧
      (presenting [0x1000000000000000#64] [0x2000000000000000#64] 0).io.rstIn = 0 ∧
      (presenting [0x1000000000000000#64] [0x2000000000000000#64] 0).io.eIn = [0x1000000000000000#64] ∧
      (presenting [0x1000000000000000#64] [0x2000000000000000#64] 0).io.hIn = [0x2000000000000000#64] := by decide

-- an edge that stores no frame, beside a read
theorem witness_EdgeAndHostOrdersDifferOnlyInFrameVisibility :
    isHostOp .fdRead = true ∧ ∃ (e : State) (w : Word), exec (.edge false 1000) State.reset = .next e ∧
      e.io.response = some { port := .edge, word := w } ∧ dresOf w ≠ 1 :=
  ⟨rfl, _, _, rfl, rfl, by decide⟩

theorem witness_ResetIsWhollyBeforeOrAfterAnOperation :
    configLegal (presenting [] [] 1).cfg = true ∧ (presenting [] [] 1).io.rstIn = 0 + 1 ∧
      (presenting [] [] 1).io.eIn = [] ∧ (presenting [] [] 1).io.hIn = [] ∧
      (presenting [0#64] [] 1).io.eIn = [0#64] ∧ (presenting [0#64] [] 1).io.hIn = [] ∧
      (presenting [] [0#64] 1).io.hIn = [0#64] ∧ (presenting [] [0#64] 1).io.eIn = [] ∧
      (presenting [0#64] [0#64] 1).io.eIn = [0#64] ∧ (presenting [0#64] [0#64] 1).io.hIn = [0#64] := by decide

theorem witness_NoOperationStopsTheBlock : configLegal State.reset.cfg = true := by decide

theorem witness_ConfigurationNeverChanges :
    (∃ u, exec .btReset State.reset = .next u) ∧ ∃ u, step State.reset = .next u := ⟨⟨_, rfl⟩, ⟨_, rfl⟩⟩

theorem witness_WindowTestIsExact :
    configLegal .standard = true ∧ (564 : Ts).toNat = 1 * Config.standard.pulse ∧ 0 < (564 : Ts).toNat := by decide

-- the upper edge of the widest window
theorem witness_ClassesAreNamedByTheirWindows :
    configLegal .standard = true ∧ necMultipliers .standard ∧ inWindow .standard 11279 16 = true ∧
      16 ∈ [Config.standard.mLeadMark, Config.standard.mLeadSpace, Config.standard.mHoldSpace, Config.standard.mBitMark,
        Config.standard.mZeroSpace, Config.standard.mOneSpace] := by decide

theorem witness_TimestampDifferenceIsModular :
    Config.standard.tsW ≤ 32 ∧ timeFits .standard 0 = true ∧ timeFits .standard 0xFFFFFFFF = true ∧
      configLegal .standard = true ∧ 0 < (1 : Ts).toNat ∧
      (0x7FFFFFFF : Ts).toNat < 2 ^ (Config.standard.tsW - 1) := by decide

theorem witness_BufferBitsAndBytes :
    3 < 4 ∧ 7 < 8 ∧ (0xFF0010EE#32).getLsbD (31 - (31 : BitVec 5).toNat) = false := by decide

-- ED15: one microsecond above T_FRAME
theorem witness_EdgeAfterFrameTimeout :
    configLegal (withDec (inLead 10024)).cfg = true ∧
      (withDec (inLead 10024)).cfg.mTimeout * (withDec (inLead 10024)).cfg.pulse <
        (durationOf .standard (inLead 10024) 54017).toNat := by decide

-- ED4, ED3, ED7: both sides of the lower edge of the lead mark, and a space
theorem witness_EdgeInIdle :
    (withDec { DecodeState.reset with lastEdgeTime := 1000 }).dec.st = .idle ∧
      inWindow .standard (durationOf .standard { DecodeState.reset with lastEdgeTime := 1000 } 7769) 16 = true ∧
      inWindow .standard (durationOf .standard { DecodeState.reset with lastEdgeTime := 1000 } 7768) 16 = false ∧
      (durationOf .standard { DecodeState.reset with lastEdgeTime := 1000 } 44992).toNat ≤ 78 * 564 := by decide

-- ED14: the duration T_FRAME itself is no timeout
theorem witness_EdgeAfterLeadMark :
    (withDec (inLead 10024)).dec.st = .receivingLead ∧
      (durationOf .standard (inLead 10024) 54016).toNat ≤
        Config.standard.mTimeout * Config.standard.pulse ∧
      classifyLeadSpace .standard (durationOf .standard (inLead 10024) 13409) = .dataLead ∧
      classifyLeadSpace .standard (durationOf .standard (inLead 10024) 12843) = .holding ∧
      classifyLeadSpace .standard (durationOf .standard (inLead 10024) 12844) = .neither ∧
      classifyLeadSpace .standard (durationOf .standard (inLead 10024) 54016) = .neither := by decide

-- ED16, ED22
theorem witness_EdgeOrderInsideBits :
    (inData false 5 0xA8000000 0 20000).st = .receivingData ∧ (inData false 5 0xA8000000 0 20000).half = false ∧
      (inData true 5 0xA8000000 564 20564).half = true ∧
      (durationOf .standard (inData false 5 0xA8000000 0 20000) 20564).toNat ≤ 78 * 564 ∧
      (durationOf .standard (inData true 5 0xA8000000 564 20564) 21128).toNat ≤ 78 * 564 := by decide

-- ED20; bit 30 with both values; ED23 and ED24 at bit 31
theorem witness_EdgeAtBitSpace :
    (inData true 31 0xFF0010EE 564 70000).st = .receivingData ∧ (inData true 31 0xFF0010EE 564 70000).half = true ∧
      (durationOf .standard (inData true 31 0xFF0010EE 564 70000) 71692).toNat ≤ 78 * 564 ∧
      classifyBit .standard 564 (durationOf .standard (inData true 5 0xA8000000 564 20564) 21564) = .invalid ∧
      classifyBit .standard 564 (durationOf .standard (inData true 30 0 564 70000) 70564) = .zero ∧
      classifyBit .standard 564 (durationOf .standard (inData true 30 0 564 70000) 71692) = .one ∧
      (inData true 30 0 564 70000).bitIndex.toNat < 31 ∧ (inData true 31 0xFF0010EE 564 70000).bitIndex.toNat = 31 ∧
      bufByte (bufSetBit 0xFF0010EE 31 true) 2 ^^^ bufByte (bufSetBit 0xFF0010EE 31 true) 3 = 0xFF ∧
      bufByte (bufSetBit 0xFF0010EE 31 false) 2 ^^^ bufByte (bufSetBit 0xFF0010EE 31 false) 3 ≠ 0xFF := by decide

-- ED1 stores no frame; a state with a pending frame; the kind stays NoProtocol
theorem witness_EdgeFrame :
    (withLf (heldFrame true)).lf.pending = true ∧ ∃ u : State, exec (.edge false 1000) State.reset = .next u ∧
      u.lf.kind = .noProtocol ∧ ∃ w, u.io.response = some { port := .edge, word := w } ∧ dresOf w ≠ 1 :=
  ⟨rfl, _, rfl, rfl, _, rfl, by decide⟩

-- ED12, ED20, ED24: each cause
theorem witness_AbortClearsOnlyTheDecodeState :
    (∃ (u : State) (w : Word), exec (.edge true 14536) (withDec (inLead 10024)) = .next u ∧
      u.io.response = some { port := .edge, word := w } ∧ dresOf w = 2 ∧ causeOf w = 3) ∧
    (∃ (u : State) (w : Word), exec (.edge false 21564) (withDec (inData true 5 0xA8000000 564 20564)) = .next u ∧
      u.io.response = some { port := .edge, word := w } ∧ dresOf w = 2 ∧ causeOf w = 1) ∧
    (∃ (u : State) (w : Word), exec (.edge false 70564) (withDec (inData true 31 0xFF0010EE 564 70000)) = .next u ∧
      u.io.response = some { port := .edge, word := w } ∧ dresOf w = 2 ∧ causeOf w = 2) :=
  ⟨⟨_, _, rfl, rfl, by decide⟩, ⟨_, _, rfl, rfl, by decide⟩, ⟨_, _, rfl, rfl, by decide⟩⟩

set_option maxRecDepth 8000 in
theorem witness_EveryWellFormedDataFrameIsDecoded :
    configLegal .standard = true ∧ necMultipliers .standard ∧ timeFits .standard 1000000 = true ∧
      State.reset.dec.st = .idle ∧ tFrame .standard < (durationOf .standard (inLead 10024) 1000000).toNat ∧
      fitsSymbols .standard (frameSymbols .standard 0x00FF 0x10) (encodeFrame .standard 0x00FF 0x10) = true := by decide

/-- The words of the frame above, presented in the reset state. -/
theorem witness_EveryWellFormedDataFrameIsDecoded_presented :
    (presenting (edgeWords (edgeStream .standard 1000000 (encodeFrame .standard 0x00FF 0x10))) [] 0).io.eIn =
        edgeWords (edgeStream .standard 1000000 (encodeFrame .standard 0x00FF 0x10)) ∧
      (presenting (edgeWords (edgeStream .standard 1000000 (encodeFrame .standard 0x00FF 0x10))) [] 0).io.hIn = [] ∧
      (presenting (edgeWords (edgeStream .standard 1000000 (encodeFrame .standard 0x00FF 0x10))) [] 0).io.rstIn = 0 :=
  ⟨rfl, rfl, rfl⟩

-- the windows' own edges: lead mark 6769, holding space 2819, stop mark 704
theorem witness_EveryWellFormedRepeatFrameIsDecoded :
    configLegal .standard = true ∧ necMultipliers .standard ∧ timeFits .standard 0xFFFFFFFF = true ∧
      State.reset.dec.st = .idle ∧
      fitsSymbols .standard (repeatSymbols .standard)
        [{ isMark := true, dur := 6769 }, { isMark := false, dur := 2819 }, { isMark := true, dur := 704 }] = true ∧
      (presenting (edgeWords (edgeStream .standard 0xFFFFFFFF
        [{ isMark := true, dur := 6769 }, { isMark := false, dur := 2819 }, { isMark := true, dur := 704 }])) [] 0).io.hIn =
          [] := by decide

theorem witness_ReferenceEncoderShape :
    configLegal .standard = true ∧ necMultipliers .standard ∧ 0 < Config.standard.pulse := by decide

theorem witness_FrameReadClaimsThePendingFrame :
    (withLf (heldFrame true)).lf.pending = true ∧ (withLf (heldFrame false)).lf.pending = false := by decide

theorem witness_ReadThenFrameIsPoll :
    (withLf (heldFrame true)).lf.pending = true ∧
      timeFits (withLf (heldFrame true)).cfg (withLf (heldFrame true)).lf.time = true := by decide

-- BT17 (filter), BT3 (no press), BT16 (timed out)
theorem witness_FramesThatChangeNothing :
    (filtered.filterEn = true ∧ (0x1234 : Addr) ≠ filtered.filterAddr) ∧ State.reset.bt.pressCount = 0 ∧
      (session 1 2 .timeout 220000 true true).timeoutType = .timeout := by decide

theorem witness_AddressFilter :
    (filtered.filterEn = true ∧ (0x00FE : Addr) ≠ filtered.filterAddr) ∧ Config.standard.filterEn = false := by decide

-- BT18, BT14
theorem witness_NewPress :
    (Config.standard.filterEn = false ∨ (0 : Addr) = Config.standard.filterAddr) ∧
      (0x00FF : Addr) = filtered.filterAddr ∧ State.reset.bt.pressCount = 0 ∧
      (session 3 2 .timeout 220000 false true).timeoutType = .timeout ∧
      (session 3 2 .timeout 220000 false true).relFlag = false := by decide

-- BT13, BT12
theorem witness_PressAfterUnconsumedRelease :
    Config.standard.filterEn = false ∧ (session 255 2 .timeout 220000 true true).pressCount ≠ 0 ∧
      (session 255 2 .timeout 220000 true true).timeoutType = .timeout ∧
      (session 255 2 .timeout 220000 true true).relFlag = true ∧
      (5 : Byte) = (session 255 2 .timeout 220000 true true).lastCommand ∧
      (9 : Byte) ≠ (session 255 2 .timeout 220000 true true).lastCommand := by decide

-- BT6, BT7
theorem witness_DataFrameWhileActive :
    Config.standard.filterEn = false ∧ (session 1 0 .noTimeout 0 false false).pressCount ≠ 0 ∧
      (session 1 0 .noTimeout 0 false false).timeoutType ≠ .timeout ∧
      (5 : Byte) = (session 1 0 .noTimeout 0 false false).lastCommand ∧
      (9 : Byte) ≠ (session 1 0 .noTimeout 0 false false).lastCommand := by decide

-- BT9, BT10
theorem witness_RepeatFrameHolds :
    (session 1 255 .noTimeout 110000 false false).pressCount ≠ 0 ∧
      (session 1 255 .noTimeout 110000 false false).timeoutType ≠ .timeout ∧
      (session 2 3 .nextButton 110000 false false).timeoutType ≠ .timeout := by decide

-- BT22 and BT21: T_RELEASE + 1 and T_RELEASE; BT23; BT24
theorem witness_CheckTimeoutRegistersOneRelease :
    (session 1 2 .noTimeout 220000 false false).pressCount ≠ 0 ∧
      (session 1 2 .noTimeout 220000 false false).timeoutType ≠ .timeout ∧
      Config.standard.tRelease < (subTs .standard 373993 220000).toNat ∧
      (subTs .standard 373992 220000).toNat ≤ Config.standard.tRelease ∧ State.reset.bt.pressCount = 0 ∧
      (session 1 2 .timeout 220000 false false).timeoutType = .timeout := by decide

theorem witness_PollClaimsOrChecks :
    (withLf (heldFrame true)).lf.pending = true ∧ (withLf (heldFrame false)).lf.pending = false := by decide

-- BT33 and BT34: one below the count, and the count
theorem witness_TrackerReads :
    (1 : Byte).toNat < (session 1 2 .noTimeout 0 false false).holdCount.toNat ∧
      (session 1 2 .noTimeout 0 false false).holdCount.toNat ≤ (2 : Byte).toNat := by decide

theorem witness_HostOperationsKeepTheDecoder :
    isHostOp .fdAvail = true ∧ isHostOp .btReset = true ∧ (withLf (heldFrame true)).lf.pending = true ∧
      mayClaim .fdAvail = false ∧ mayWriteSession .fdRead = false := by decide

-- a hold; a press
theorem witness_CountersAreMonotonicWithinAPress :
    (∃ u, exec (.btFrame .repeatFrame 0 0 220000) (withBt (session 1 1 .noTimeout 0 false false)) = .next u) ∧
      opStartsPress (withBt (session 1 1 .noTimeout 0 false false)) (.btFrame .repeatFrame 0 0 220000) = false ∧
      (∃ u, exec (.btFrame .dataFrame 0 5 0) State.reset = .next u) ∧
      opStartsPress State.reset (.btFrame .dataFrame 0 5 0) = true := ⟨⟨_, rfl⟩, by decide, ⟨_, rfl⟩, by decide⟩

-- each of the six changes: reset, release, NewButton while active, consumed, NextButton, NewButton
theorem witness_TimeoutTypeLifeCycle :
    (∃ u, exec .btReset (withBt (session 1 2 .timeout 0 true true)) = .next u ∧ u.bt.timeoutType = .noTimeout) ∧
    (∃ u, exec (.btChkTo 153993) (withBt (session 1 2 .noTimeout 0 false false)) = .next u ∧
      u.bt.timeoutType = .timeout) ∧
    (∃ u, exec (.btFrame .dataFrame 0 9 0) (withBt (session 1 2 .noTimeout 0 false false)) = .next u ∧
      u.bt.timeoutType = .newButton) ∧
    (∃ u, exec (.btFrame .dataFrame 0 5 0) (withBt (session 1 2 .timeout 0 false true)) = .next u ∧
      u.bt.timeoutType = .noTimeout) ∧
    (∃ u, exec (.btFrame .dataFrame 0 5 0) (withBt (session 1 2 .timeout 0 true true)) = .next u ∧
      u.bt.timeoutType = .nextButton) ∧
    (∃ u, exec (.btFrame .dataFrame 0 9 0) (withBt (session 1 2 .timeout 0 true true)) = .next u ∧
      u.bt.timeoutType = .newButton) :=
  ⟨⟨_, rfl, rfl⟩, ⟨_, rfl, rfl⟩, ⟨_, rfl, rfl⟩, ⟨_, rfl, rfl⟩, ⟨_, rfl, rfl⟩, ⟨_, rfl, rfl⟩⟩

/-- The sessions of the witness above meet the tracker invariant. -/
theorem witness_TimeoutTypeLifeCycle_invariant :
    trackerInv (session 1 2 .timeout 0 true true) ∧ trackerInv (session 1 2 .noTimeout 0 false false) ∧
      trackerInv (session 1 2 .timeout 0 false true) := by decide

-- each flag lowered by its read, both raised by a release
theorem witness_FlagsChangeOnlyByReleasesAndTheirReads :
    (∃ u, exec .btRelease (withBt (session 1 2 .timeout 0 true true)) = .next u ∧ u.bt.relFlag = false) ∧
    (∃ u, exec .btPressTo (withBt (session 1 2 .timeout 0 true true)) = .next u ∧ u.bt.toFlag = false) ∧
    (∃ u, exec (.btChkTo 153993) (withBt (session 1 2 .noTimeout 0 false false)) = .next u ∧ u.bt.relFlag = true ∧
      u.bt.toFlag = true) :=
  ⟨⟨_, rfl, rfl⟩, ⟨_, rfl, rfl⟩, ⟨_, rfl, rfl, rfl⟩⟩

-- inside a frame (ED18), with a word presented
theorem witness_EveryStepKeepsTheInvariant :
    ((withDec (inData true 5 0xA8000000 564 20564)).setIo
        { Interface.reset with eIn := [0x10000000000056F0#64] }).Inv ∧
      (after (withDec (inData true 5 0xA8000000 564 20564)) .edge 0x10000000000056F0#64).isSome = true := by decide

end Sys2Proof.Tests
end

section
/-!
PROOFS. The reset event (10_state R45, 70_reset R280): the value of every register in the reset records, what accepting
`RST` does, and the statement O11 assembled from them.
-/

namespace Sys2Proof.Machine

@[simp] theorem DecodeState.reset_st : DecodeState.reset.st = .idle := rfl
@[simp] theorem DecodeState.reset_half : DecodeState.reset.half = false := rfl
@[simp] theorem DecodeState.reset_bitIndex : DecodeState.reset.bitIndex = 0 := rfl
@[simp] theorem DecodeState.reset_buf : DecodeState.reset.buf = 0 := rfl
@[simp] theorem DecodeState.reset_markDur : DecodeState.reset.markDur = 0 := rfl
@[simp] theorem DecodeState.reset_lastEdgeTime : DecodeState.reset.lastEdgeTime = 0 := rfl

@[simp] theorem LastDecodedFrame.reset_kind : LastDecodedFrame.reset.kind = .noProtocol := rfl
@[simp] theorem LastDecodedFrame.reset_address : LastDecodedFrame.reset.address = 0 := rfl
@[simp] theorem LastDecodedFrame.reset_command : LastDecodedFrame.reset.command = 0 := rfl
@[simp] theorem LastDecodedFrame.reset_time : LastDecodedFrame.reset.time = 0 := rfl
@[simp] theorem LastDecodedFrame.reset_pending : LastDecodedFrame.reset.pending = false := rfl

@[simp] theorem ButtonSession.reset_lastCommand : ButtonSession.reset.lastCommand = 0 := rfl
@[simp] theorem ButtonSession.reset_pressCount : ButtonSession.reset.pressCount = 0 := rfl
@[simp] theorem ButtonSession.reset_holdCount : ButtonSession.reset.holdCount = 0 := rfl
@[simp] theorem ButtonSession.reset_timeoutType : ButtonSession.reset.timeoutType = .noTimeout := rfl
@[simp] theorem ButtonSession.reset_lastEventTime : ButtonSession.reset.lastEventTime = 0 := rfl
@[simp] theorem ButtonSession.reset_relFlag : ButtonSession.reset.relFlag = false := rfl
@[simp] theorem ButtonSession.reset_toFlag : ButtonSession.reset.toFlag = false := rfl

@[simp] theorem State.reset_dec : State.reset.dec = .reset := rfl
@[simp] theorem State.reset_lf : State.reset.lf = .reset := rfl
@[simp] theorem State.reset_bt : State.reset.bt = .reset := rfl

@[simp] theorem perform_rst (s : State) : perform .rst s = .next (resetEvent s) := rfl

/-- Settles O11: the state reached is `resetEvent s`, whose three register groups are the reset records. -/
theorem resetEventRestoresTheTable : Obligations.ResetEventRestoresTheTable := by
  intro s
  exact ⟨resetEvent s, perform_rst s, by simp⟩

end Sys2Proof.Machine
end

section
/-!
PROOFS. Reserved bits (30_encoding R110): each opcode's mask of named bits is its own format with every named bit set, so
masking a word keeps the opcode and every operand field the format has, and keeps a canonical word whole; the statement O2
assembled from them.
-/

namespace Sys2Proof.Machine

/-! ## The masks as formats. -/

theorem truncTs_and (c : Config) (t u : Ts) : truncTs c (t &&& u) = truncTs c t &&& truncTs c u := by
  simp only [truncTs, BitVec.setWidth_and]

@[simp] theorem truncTs_truncTs (c : Config) (t : Ts) : truncTs c (truncTs c t) = truncTs c t :=
  truncTs_of_fits c (truncTs_fits c t)

/-- A time field with all its `TS_W` bits set. -/
def timeMask (c : Config) : Ts := truncTs c (BitVec.allOnes 32)

@[simp] theorem truncTs_timeMask (c : Config) : truncTs c (timeMask c) = timeMask c := truncTs_truncTs c _

theorem truncTs_and_timeMask (c : Config) (t : Ts) : truncTs c t &&& timeMask c = truncTs c t := by
  rw [timeMask, ← truncTs_and, BitVec.and_allOnes]

theorem and_timeMask_of_fits (c : Config) {t : Ts} (h : timeFits c t = true) : t &&& timeMask c = t := by
  rw [← truncTs_of_fits c h, truncTs_and_timeMask]

/-- `cw[TS_W-1:0]` lies in the low half of a word. -/
theorem append_zero_or_timeBits (c : Config) (hc : c.tsW ≤ 32) (high : BitVec 32) :
    (high ++ 0#32) ||| timeBits c = high ++ timeMask c := by
  have hlow : timeBits c = 0#32 ++ timeMask c := by
    apply BitVec.eq_of_getLsbD_eq
    intro i hi
    simp only [timeBits, timeMask, truncTs, BitVec.getLsbD_append, BitVec.getLsbD_ofNat, BitVec.getLsbD_setWidth,
      BitVec.getLsbD_allOnes, Nat.testBit_two_pow_sub_one]
    grind
  rw [hlow, BitVec.or_append, BitVec.or_zero, BitVec.zero_or]

section
variable (c : Config) (hc : c.tsW ≤ 32)
include hc

theorem namedBits_formatE : namedBits c 0x1#4 = formatE 0xF true (timeMask c) :=
  (BitVec.or_assoc ..).symm.trans (append_zero_or_timeBits c hc 0xF0000001#32)

theorem namedBits_formatT {op : BitVec 4} (hop : op = 0x4#4 ∨ op = 0x7#4 ∨ op = 0x8#4) :
    namedBits c op = formatT 0xF (timeMask c) := by
  rcases hop with rfl | rfl | rfl <;> exact append_zero_or_timeBits c hc 0xF0000000#32

theorem namedBits_formatF : namedBits c 0x6#4 = formatF 0xF .reserved 0xFFFF 0xFF (timeMask c) :=
  (BitVec.or_assoc ..).symm.trans (append_zero_or_timeBits c hc 0xFFFFFFFC#32)

end

theorem namedBits_formatD (c : Config) : namedBits c 0xB#4 = formatD 0xF 0xFF := rfl

theorem namedBits_formatN (c : Config) {op : BitVec 4}
    (hop : op ∉ [0x1#4, 0x4#4, 0x6#4, 0x7#4, 0x8#4, 0xB#4]) : namedBits c op = formatN 0xF := by
  unfold namedBits
  split
  case h_7 => rfl
  all_goals simp at hop

theorem opcodeOf_namedBits (c : Config) (op : BitVec 4) : opcodeOf (namedBits c op) = BitVec.allOnes 4 := by
  unfold namedBits opcodeOf
  rw [BitVec.extractLsb'_or]
  exact BitVec.allOnes_or

/-! ## A masked word, field by field. -/

theorem opcodeOf_and (w v : Word) : opcodeOf (w &&& v) = opcodeOf w &&& opcodeOf v := BitVec.extractLsb'_and

theorem timeField_and (c : Config) (w v : Word) : timeField c (w &&& v) = timeField c w &&& timeField c v := by
  rw [timeField, BitVec.extractLsb'_and, truncTs_and, timeField, timeField]

theorem isMarkField_and (w v : Word) : isMarkField (w &&& v) = (isMarkField w && isMarkField v) := BitVec.getLsbD_and

theorem addressField_and (w v : Word) : addressField (w &&& v) = addressField w &&& addressField v :=
  BitVec.extractLsb'_and

theorem commandField_and (w v : Word) : commandField (w &&& v) = commandField w &&& commandField v :=
  BitVec.extractLsb'_and

theorem debounceField_and (w v : Word) : debounceField (w &&& v) = debounceField w &&& debounceField v :=
  BitVec.extractLsb'_and

theorem KindField.bits_ofBits (b : BitVec 2) : (KindField.ofBits b).bits = b := by
  revert b; decide

/-- The reserved kind is the one with both bits set. -/
theorem kindField_and_of_reserved (w : Word) {v : Word} (h : kindField v = .reserved) :
    kindField (w &&& v) = kindField w := by
  have hv : v.extractLsb' 58 2 = BitVec.allOnes 2 := by
    rw [← KindField.bits_ofBits (v.extractLsb' 58 2)]
    exact congrArg KindField.bits h
  rw [kindField, BitVec.extractLsb'_and, hv, BitVec.and_allOnes, kindField]

@[simp] theorem opcodeOf_and_namedBits (c : Config) (w : Word) (op : BitVec 4) :
    opcodeOf (w &&& namedBits c op) = opcodeOf w := by
  rw [opcodeOf_and, opcodeOf_namedBits, BitVec.and_allOnes]

@[simp] theorem debounceField_and_namedBits (c : Config) (w : Word) :
    debounceField (w &&& namedBits c 0xB#4) = debounceField w := by
  rw [debounceField_and, namedBits_formatD, debounceField_formatD]
  exact BitVec.and_allOnes

section
variable (c : Config) (hc : c.tsW ≤ 32) (w : Word)
include hc

theorem timeField_and_namedBits {op : BitVec 4} (hop : op ∈ [0x1#4, 0x4#4, 0x6#4, 0x7#4, 0x8#4]) :
    timeField c (w &&& namedBits c op) = timeField c w := by
  have hmask : timeField c (namedBits c op) = timeMask c := by
    fin_cases hop
    · simp [namedBits_formatE c hc]
    · simp [namedBits_formatT c hc]
    · simp [namedBits_formatF c hc]
    · simp [namedBits_formatT c hc]
    · simp [namedBits_formatT c hc]
  rw [timeField_and, hmask, timeField, truncTs_and_timeMask]

theorem isMarkField_and_namedBits : isMarkField (w &&& namedBits c 0x1#4) = isMarkField w := by
  rw [isMarkField_and, namedBits_formatE c hc, isMarkField_formatE, Bool.and_true]

theorem kindField_and_namedBits : kindField (w &&& namedBits c 0x6#4) = kindField w :=
  kindField_and_of_reserved w (by rw [namedBits_formatF c hc, kindField_formatF])

theorem addressField_and_namedBits : addressField (w &&& namedBits c 0x6#4) = addressField w := by
  rw [addressField_and, namedBits_formatF c hc, addressField_formatF]
  exact BitVec.and_allOnes

theorem commandField_and_namedBits : commandField (w &&& namedBits c 0x6#4) = commandField w := by
  rw [commandField_and, namedBits_formatF c hc, commandField_formatF]
  exact BitVec.and_allOnes

/-- R110: the decoder reads the same operation with the reserved bits cleared. -/
theorem decode_and_namedBits (p : Port) : decode c p (w &&& namedBits c (opcodeOf w)) = decode c p w := by
  have htime {op : BitVec 4} (hop : op ∈ [0x1#4, 0x4#4, 0x6#4, 0x7#4, 0x8#4]) := timeField_and_namedBits c hc w hop
  cases p with
  | edge =>
    simp only [decode, decodeEdgePort, opcodeOf_and_namedBits]
    split
    next hop => rw [hop, htime (by decide), isMarkField_and_namedBits c hc]
    next => rfl
  | host =>
    simp only [decode, decodeHostPort, opcodeOf_and_namedBits]
    split <;> rename_i hop
    case h_3 | h_6 | h_7 => rw [hop, htime (by decide)]
    case h_5 =>
      rw [hop, htime (by decide), kindField_and_namedBits c hc, addressField_and_namedBits c hc,
        commandField_and_namedBits c hc]
    case h_10 => rw [hop, debounceField_and_namedBits]
    all_goals rfl

end

/-! ## Canonical words. -/

theorem formatN_and (op op' : BitVec 4) : formatN op &&& formatN op' = formatN (op &&& op') := by
  show (op ++ 0#60) &&& (op' ++ 0#60) = (op &&& op') ++ 0#60
  simp only [BitVec.and_append, BitVec.and_self]

theorem formatE_and (op op' : BitVec 4) (m m' : Bool) (t t' : Ts) :
    formatE op m t &&& formatE op' m' t' = formatE (op &&& op') (m && m') (t &&& t') := by
  show (op ++ 0#27 ++ BitVec.ofBool m ++ t) &&& (op' ++ 0#27 ++ BitVec.ofBool m' ++ t') =
    (op &&& op') ++ 0#27 ++ BitVec.ofBool (m && m') ++ (t &&& t')
  simp only [BitVec.and_append, BitVec.and_self, BitVec.ofBool_and_ofBool]

theorem formatT_and (op op' : BitVec 4) (t t' : Ts) :
    formatT op t &&& formatT op' t' = formatT (op &&& op') (t &&& t') := by
  show (op ++ 0#28 ++ t) &&& (op' ++ 0#28 ++ t') = (op &&& op') ++ 0#28 ++ (t &&& t')
  simp only [BitVec.and_append, BitVec.and_self]

theorem formatF_and_reserved (op op' : BitVec 4) (k : KindField) (a a' : Addr) (x x' : Byte) (t t' : Ts) :
    formatF op k a x t &&& formatF op' .reserved a' x' t' =
      formatF (op &&& op') k (a &&& a') (x &&& x') (t &&& t') := by
  have hk : k.bits &&& KindField.reserved.bits = k.bits := BitVec.and_allOnes
  show (op ++ k.bits ++ a ++ x ++ 0#2 ++ t) &&& (op' ++ KindField.reserved.bits ++ a' ++ x' ++ 0#2 ++ t') =
    (op &&& op') ++ k.bits ++ (a &&& a') ++ (x &&& x') ++ 0#2 ++ (t &&& t')
  simp only [BitVec.and_append, BitVec.and_self, hk]

theorem formatD_and (op op' : BitVec 4) (x x' : Byte) :
    formatD op x &&& formatD op' x' = formatD (op &&& op') (x &&& x') := by
  show (op ++ 0#52 ++ x) &&& (op' ++ 0#52 ++ x') = (op &&& op') ++ 0#52 ++ (x &&& x')
  simp only [BitVec.and_append, BitVec.and_self]

theorem and_fullOpcode (op : BitVec 4) : op &&& 0xF = op := BitVec.and_allOnes
theorem and_fullAddr (a : Addr) : a &&& 0xFFFF = a := BitVec.and_allOnes
theorem and_fullByte (x : Byte) : x &&& 0xFF = x := BitVec.and_allOnes

/-- R110: a canonical word has no reserved bit set. -/
theorem encode_and_namedBits (c : Config) (hc : c.tsW ≤ 32) (i : Instr) (h : i.wellFormed c = true) :
    (encode i).2 &&& namedBits c (opcodeOf (encode i).2) = (encode i).2 := by
  cases i with
  | edge m t =>
    simp only [encode, opcodeOf_formatE, BitVec.ofNat_eq_ofNat]
    rw [namedBits_formatE c hc, formatE_and, and_fullOpcode, Bool.and_true, and_timeMask_of_fits c h]
  | btFrame k a x t =>
    simp only [encode, opcodeOf_formatF, BitVec.ofNat_eq_ofNat]
    rw [namedBits_formatF c hc, formatF_and_reserved, and_fullOpcode, and_fullAddr, and_fullByte,
      and_timeMask_of_fits c h]
  | btHoldCnt x =>
    simp only [encode, opcodeOf_formatD, BitVec.ofNat_eq_ofNat]
    rw [namedBits_formatD, formatD_and, and_fullOpcode, and_fullByte]
  | fdTimeout now | btChkTo now | btPoll now =>
    simp only [encode, opcodeOf_formatT]
    rw [namedBits_formatT c hc (by decide), formatT_and, and_fullOpcode, and_timeMask_of_fits c h]
  | _ =>
    simp only [encode, opcodeOf_formatN]
    rw [namedBits_formatN c (by decide), formatN_and, and_fullOpcode]

/-- Settles O2: clearing the reserved bits of either word keeps its operation, and leaves the same word of both. -/
theorem reservedBitsAreIgnored : Obligations.ReservedBitsAreIgnored := by
  refine ⟨fun c p w w' hc h => ?_, fun c i hc hi => encode_and_namedBits c hc i hi⟩
  have hop : opcodeOf w = opcodeOf w' := by simpa using congrArg opcodeOf h
  calc decode c p w = decode c p (w &&& namedBits c (opcodeOf w)) := (decode_and_namedBits c hc w p).symm
    _ = decode c p (w' &&& namedBits c (opcodeOf w')) := by rw [h, hop]
    _ = decode c p w' := decode_and_namedBits c hc w' p

end Sys2Proof.Machine
end

section
/-!
PROOFS. Illegal command words (30_encoding R109, 60_exceptions R255): which words each port refuses and what an illegal
operation does; the statement O4 assembled from them.
-/

namespace Sys2Proof.Machine

/-- R109: the E port accepts opcode 1 alone. -/
theorem decodeEdgePort_eq_illegal_iff (c : Config) (w : Word) (q : Port) :
    decodeEdgePort c w = .illegal q ↔ q = .edge ∧ opcodeOf w ≠ 1 := by
  unfold decodeEdgePort
  split
  next hop => simp [hop]
  next hop =>
    have hop : opcodeOf w ≠ 1#4 := hop
    simp [hop, eq_comm (a := q)]

/-- R109: the H port accepts every opcode but 0 and 1. -/
theorem decodeHostPort_eq_illegal_iff (c : Config) (w : Word) (q : Port) :
    decodeHostPort c w = .illegal q ↔ q = .host ∧ (opcodeOf w = 0 ∨ opcodeOf w = 1) := by
  unfold decodeHostPort
  split
  case h_15 =>
    have hop : opcodeOf w = 0#4 ∨ opcodeOf w = 1#4 := by
      simp only [imp_false] at *
      bv_omega
    simp [hop, eq_comm (a := q)]
  all_goals
    rename_i hop
    simp [hop]

theorem decode_eq_illegal_iff (c : Config) (p q : Port) (w : Word) :
    decode c p w = .illegal q ↔
      q = p ∧ (opcodeOf w = 0 ∨ (p = .host ∧ opcodeOf w = 1) ∨ (p = .edge ∧ opcodeOf w ≠ 1)) := by
  cases p with
  | edge =>
    have hzero : opcodeOf w = 0 → opcodeOf w ≠ 1 := by bv_omega
    simpa [decode, decodeEdgePort_eq_illegal_iff] using fun _ => hzero
  | host => simp [decode, decodeHostPort_eq_illegal_iff]

theorem illegalReply_word : illegalReply.word = 0x8000000000000000#64 := rfl

theorem exec_illegal (p : Port) (s : State) : exec (.illegal p) s = .next (s.answer p illegalReply) := rfl

/-- Settles O4: the illegal words of each port, and the answer ILL, which writes the response alone. -/
theorem illegalWordsChangeNothing : Obligations.IllegalWordsChangeNothing := by
  refine ⟨decode_eq_illegal_iff, fun p s => ?_⟩
  rw [exec_illegal, State.answer, illegalReply_word, State.setIo]

end Sys2Proof.Machine
end

section
/-!
PROOFS. Reserved values (30_encoding R101, R106, R107, R111): the reply of each kind of operation, its fields read back from
the response word, and the statement O7 assembled from them.
-/

namespace Sys2Proof.Machine

theorem FrameKind.bits_ne_three (k : FrameKind) : k.bits ≠ 3#2 := by cases k <;> decide

theorem DecSt.bits_ne_three (st : DecSt) : st.bits ≠ 3#2 := by cases st <;> decide

theorem ErrorCause.bits_ne_zero (cause : ErrorCause) : cause.bits ≠ 0#2 := by cases cause <;> decide

/-! ## The reply of each kind of operation. -/

/-- What a host operation may answer: no ILL, no DRES, no CAUSE, and a KIND below 3. -/
structure Reply.IsHostReply (r : Reply) : Prop where
  ill : r.ill = false
  dres : r.dres = 0
  cause : r.cause = 0
  kind : r.kind ≠ 3#2

theorem isHostReply_valueReply (v : BitVec 32) : (valueReply v).IsHostReply where
  ill := rfl
  dres := rfl
  cause := rfl
  kind := by simp [valueReply]

theorem isHostReply_frameReply (l : LastDecodedFrame) : (frameReply l).IsHostReply where
  ill := rfl
  dres := rfl
  cause := rfl
  kind := l.kind.bits_ne_three

theorem isHostReply_readReply (l : LastDecodedFrame) : (readReply l).IsHostReply := by
  unfold readReply
  split
  · exact isHostReply_frameReply l
  · exact isHostReply_valueReply l.time

/-- Every host operation completes and answers on the H port. -/
theorem exec_hostOp (i : Instr) (s : State) (h : isHostOp i = true) :
    ∃ (u : State) (r : Reply), exec i s = .next (u.answer .host r) ∧ r.IsHostReply := by
  cases i with
  | illegal p | edge m t => simp [isHostOp] at h
  | fdRead => exact ⟨_, _, rfl, isHostReply_readReply s.lf⟩
  | btPoll now =>
    rcases execBtPoll_cases now s with ⟨_, hnext⟩ | ⟨_, hnext⟩ <;> exact ⟨_, _, hnext, isHostReply_valueReply _⟩
  | _ => exact ⟨_, _, rfl, isHostReply_valueReply _⟩

/-- The reply of `EDGE`: no ILL, a DRES and a KIND below 3, and a CAUSE exactly for an `Error`. -/
theorem DecodeResult.reply_fields (d : DecodeResult) :
    d.reply.ill = false ∧ d.reply.dres ≠ 3 ∧ d.reply.kind ≠ 3 ∧ (d.reply.cause ≠ 0 ↔ d.reply.dres = 2) := by
  cases d with
  | pending => decide
  | frameReady kind address command => simp [DecodeResult.reply, kind.bits_ne_three]
  | error cause => simp [DecodeResult.reply, cause.bits_ne_zero]

/-- Every operation completes with an answer, of which no field has a reserved value. -/
theorem exec_answers (i : Instr) (s : State) : ∃ (u : State) (p : Port) (r : Reply),
    exec i s = .next (u.answer p r) ∧ r.dres ≠ 3 ∧ r.kind ≠ 3 ∧ (r.cause ≠ 0 ↔ r.dres = 2) ∧
      (isHostOp i = true → p = .host ∧ r.dres = 0) ∧ (r.ill = true ↔ i = .illegal p) := by
  cases hi : isHostOp i
  case true =>
    obtain ⟨u, r, hnext, hr⟩ := exec_hostOp i s hi
    have hlegal : i ≠ .illegal .host := by rintro rfl; simp [isHostOp] at hi
    exact ⟨u, .host, r, hnext, by simp [hr.ill, hr.dres, hr.cause, hr.kind, hlegal]⟩
  case false =>
    cases i with
    | illegal p => exact ⟨s, p, illegalReply, rfl, by simp [illegalReply]⟩
    | edge m t =>
      obtain ⟨hill, hdres, hkind, hcause⟩ := (edgeTransition s.cfg m t s.dec s.lf).result.reply_fields
      exact ⟨_, .edge, _, execEdge_next m t s, hdres, hkind, hcause, by simp, by simp [hill]⟩
    | _ => simp [isHostOp] at hi

/-! ## The reserved `kind` operand. -/

theorem exec_btFrame_noProtocol (a : Addr) (x : Byte) (t : Ts) (s : State) :
    exec (.btFrame .noProtocol a x t) s = .next (s.answer .host (snapshotReply s.bt)) := rfl

theorem exec_btFrame_reserved (a : Addr) (x : Byte) (t : Ts) (s : State) :
    exec (.btFrame .reserved a x t) s = exec (.btFrame .noProtocol a x t) s := rfl

/-- Settles O7: the fields of every response word are those of the reply `exec_answers` names. -/
theorem reservedValuesAreNeverProduced : Obligations.ReservedValuesAreNeverProduced := by
  refine ⟨fun i s => ?_, fun a x t s => ⟨exec_btFrame_reserved a x t s, exec_btFrame_noProtocol a x t s⟩⟩
  obtain ⟨u, p, r, hnext, hreply⟩ := exec_answers i s
  refine ⟨u.answer p r, p, r.word, hnext, u.answer_response p r, ?_⟩
  simpa [DecSt.bits_ne_three, FrameKind.bits_ne_three] using hreply

end Sys2Proof.Machine
end

section
/-!
PROOFS. The window test (40_pulse_classifier R130, R131): its two corner cases, the band it is at the default parameters, and
the statement O16 assembled from them.
-/

namespace Sys2Proof.Machine

/-- R130: the lower bound is a natural number, so `TOL_DEN · 0` is not above it. -/
theorem inWindow_zero (c : Config) (m : Nat) : inWindow c 0 m = false := by
  rw [Bool.eq_false_iff, ne_eq, inWindow_iff]
  rintro ⟨hlower, -⟩
  exact Nat.not_lt_zero _ hlower

/-- R130 with R7 (a): the tolerance is positive and below 1, so a nominal duration above 0 lies strictly inside its band. -/
theorem inWindow_of_toNat_eq_nominal {c : Config} {d : Ts} {m : Nat} (hc : configLegal c = true)
    (hd : d.toNat = nominal c m) (hpos : 0 < d.toNat) : inWindow c d m = true := by
  obtain ⟨hnum, hden⟩ := configLegal_tolerance hc
  rw [inWindow_iff, ← hd]
  exact ⟨Nat.mul_lt_mul_of_pos_right (by omega) hpos, Nat.mul_lt_mul_of_pos_right (by omega) hpos⟩

/-- R130 at the defaults: `3·N < 4·d < 5·N`. -/
theorem inWindow_standard_iff (d : Ts) (m : Nat) :
    inWindow .standard d m = true ↔ 3 * (m * 564) < 4 * d.toNat ∧ 4 * d.toNat < 5 * (m * 564) :=
  inWindow_iff .standard d m

/-- Settles O16: the test is `inWindow_iff`, and each row of R131's table is the band of `inWindow_standard_iff` at its
multiplier, whose bounds are multiples of 4. -/
theorem windowTestIsExact : Obligations.WindowTestIsExact := by
  refine ⟨inWindow_iff, inWindow_zero, fun c d m => inWindow_of_toNat_eq_nominal, fun d => ?_⟩
  simp only [inWindow_standard_iff]
  omega

end Sys2Proof.Machine
end

section
/-!
PROOFS. The operation `EDGE` (41_frame_decoder R151 to R163): the next state each kind of outcome makes, the state rule that
applies within and beyond the timeout, and each state rule case by case; the statements O21 to O25 assembled from them.
-/

namespace Sys2Proof.Machine

/-! ## From an outcome to the next state. -/

section
variable {m : Bool} {t : Ts} {s : State} {d : DecodeState}

theorem exec_edge_of_outcome {o : EdgeOutcome} (h : edgeTransition s.cfg m t s.dec s.lf = o) :
    exec (.edge m t) s = .next (((s.setDec o.dec).setLf o.lf).answer .edge o.result.reply) := by
  rw [← h, ← execEdge_next, exec]

theorem exec_edge_of_pending (h : edgeTransition s.cfg m t s.dec s.lf = pendingWith d s.lf) :
    exec (.edge m t) s = .next (State.answer { s with dec := d } .edge {}) :=
  exec_edge_of_outcome h

/-- 60_exceptions R253: an abort leaves the cleared decode state and answers `Error` with its cause. -/
theorem exec_edge_of_abort (cause : ErrorCause) (h : edgeTransition s.cfg m t s.dec s.lf = abort cause d s.lf)
    (ht : d.lastEdgeTime = t) :
    exec (.edge m t) s =
      .next (State.answer { s with dec := clearedAt t } .edge { dres := 2, cause := cause.bits }) := by
  subst ht
  exact exec_edge_of_outcome h

theorem exec_edge_of_repeatReady (h : edgeTransition s.cfg m t s.dec s.lf = repeatReady t d s.lf)
    (ht : d.lastEdgeTime = t) :
    exec (.edge m t) s = .next (State.answer { s with dec := clearedAt t, lf := storeRepeat t s.lf } .edge
      { dres := 1, kind := 2, address := s.lf.address, command := s.lf.command }) := by
  subst ht
  exact exec_edge_of_outcome h

theorem exec_edge_of_dataReady (h : edgeTransition s.cfg m t s.dec s.lf = dataReady t d)
    (ht : d.lastEdgeTime = t) :
    exec (.edge m t) s = .next (State.answer { s with dec := clearedAt t, lf := storeData t d.buf } .edge
      { dres := 1, kind := 1, address := bufAddress d.buf, command := bufCommand d.buf }) := by
  subst ht
  exact exec_edge_of_outcome h

end

/-! ## The state rule that applies. -/

section
variable {c : Config} {m : Bool} {t : Ts} {d : DecodeState} {l : LastDecodedFrame}

/-- R152: beyond the timeout the edge is treated as one in the cleared state, which is in `Idle`. -/
theorem edgeTransition_of_timeout (h : tFrame c < (durationOf c d t).toNat) :
    edgeTransition c m t d l = edgeInIdle c m (durationOf c d t) (clearedAt t) l := by
  rcases edgePrepare_cases c t d with ⟨hle, -⟩ | ⟨-, hclear⟩
  · exact absurd h hle
  · rw [edgeTransition, hclear]
    rfl

variable (h : (durationOf c d t).toNat ≤ tFrame c)
include h

theorem edgeTransition_of_idle (hs : d.st = .idle) :
    edgeTransition c m t d l = edgeInIdle c m (durationOf c d t) { d with lastEdgeTime := t } l := by
  simp only [edgeTransition, edgePrepare_of_le h, edgeDispatch, hs]

theorem edgeTransition_of_receivingLead (hs : d.st = .receivingLead) :
    edgeTransition c m t d l = edgeInLead c m t (durationOf c d t) { d with lastEdgeTime := t } l := by
  simp only [edgeTransition, edgePrepare_of_le h, edgeDispatch, hs]

theorem edgeTransition_of_receivingData (hs : d.st = .receivingData) :
    edgeTransition c m t d l = edgeInData c m t (durationOf c d t) { d with lastEdgeTime := t } l := by
  simp only [edgeTransition, edgePrepare_of_le h, edgeDispatch, hs]

end

/-! ## The state rules, case by case. -/

section
variable {c : Config} {t dur : Ts} {d : DecodeState} {l : LastDecodedFrame}

theorem edgeInIdle_leadMark (hw : inWindow c dur c.mLeadMark = true) :
    edgeInIdle c true dur d l = pendingWith (enterLead d) l := by
  simp [edgeInIdle, hw]

theorem edgeInIdle_ignored {m : Bool} (h : m = false ∨ inWindow c dur c.mLeadMark = false) :
    edgeInIdle c m dur d l = pendingWith d l := by
  rcases h with hm | hw
  · simp [edgeInIdle, hm]
  · simp [edgeInIdle, hw]

theorem edgeInLead_mark : edgeInLead c true t dur d l = abort .order d l := rfl

theorem edgeInLead_dataLead (h : classifyLeadSpace c dur = .dataLead) :
    edgeInLead c false t dur d l = pendingWith (startData d) l := by
  simp [edgeInLead, h]

theorem edgeInLead_holding (h : classifyLeadSpace c dur = .holding) :
    edgeInLead c false t dur d l = repeatReady t d l := by
  simp [edgeInLead, h]

theorem edgeInLead_neither (h : classifyLeadSpace c dur = .neither) :
    edgeInLead c false t dur d l = abort .timing d l := by
  simp [edgeInLead, h]

theorem edgeInData_space_early (hh : d.half = false) : edgeInData c false t dur d l = abort .order d l := by
  simp [edgeInData, hh]

theorem edgeInData_mark (hh : d.half = false) : edgeInData c true t dur d l = pendingWith (keepMark dur d) l := by
  simp [edgeInData, hh]

theorem edgeInData_mark_late (hh : d.half = true) : edgeInData c true t dur d l = abort .order d l := by
  simp [edgeInData, hh]

theorem edgeInData_invalid (hh : d.half = true) (h : classifyBit c d.markDur dur = .invalid) :
    edgeInData c false t dur d l = abort .timing d l := by
  simp [edgeInData, hh, h]

theorem edgeInData_bit {b : Bool} (hh : d.half = true)
    (h : classifyBit c d.markDur dur = if b then .one else .zero) :
    edgeInData c false t dur d l = acceptBit b t d l := by
  cases b <;> simp [edgeInData, hh, h]

end

section
variable {b : Bool} {t : Ts} {d : DecodeState} {l : LastDecodedFrame}

theorem acceptBit_inner (hk : d.bitIndex.toNat < 31) : acceptBit b t d l = pendingWith (nextBit (putBit b d)) l := by
  have hlt : d.bitIndex < 31#5 := hk
  simp [acceptBit, hlt]

theorem acceptBit_last (hk : d.bitIndex = 31) : acceptBit b t d l = completeFrame t (putBit b d) l := by
  simp [acceptBit, hk]

theorem complementGood_iff (buf : BitVec 32) :
    complementGood buf = true ↔ bufByte buf 2 ^^^ bufByte buf 3 = 0xFF := beq_iff_eq

theorem completeFrame_good (h : bufByte d.buf 2 ^^^ bufByte d.buf 3 = 0xFF) :
    completeFrame t d l = dataReady t d := if_pos ((complementGood_iff _).mpr h)

theorem completeFrame_bad (h : bufByte d.buf 2 ^^^ bufByte d.buf 3 ≠ 0xFF) :
    completeFrame t d l = abort .complement d l := if_neg ((complementGood_iff _).not.mpr h)

end

/-! ## The obligations. -/

/-- R7 (b): a duration that matches the lead mark is within the absolute timeout. -/
theorem toNat_le_tFrame_of_leadMark {c : Config} {dur : Ts} (hc : configLegal c = true)
    (hw : inWindow c dur c.mLeadMark = true) : dur.toNat ≤ tFrame c := by
  obtain ⟨-, hupper⟩ := (inWindow_iff ..).mp hw
  have hlt : c.tolDen * dur.toNat < c.tolDen * tFrame c := hupper.trans_le (configLegal_timeout hc)
  exact (Nat.lt_of_mul_lt_mul_left hlt).le

/-- Settles O21: the edge is one in the cleared state, and too long a mark is no lead mark. -/
theorem edgeAfterFrameTimeout : Obligations.EdgeAfterFrameTimeout := by
  intro m t s hc hlong
  have hw : inWindow s.cfg (durationOf s.cfg s.dec t) s.cfg.mLeadMark = false :=
    Bool.eq_false_iff.mpr fun hw => (toNat_le_tFrame_of_leadMark hc hw).not_gt hlong
  exact exec_edge_of_pending ((edgeTransition_of_timeout hlong).trans (edgeInIdle_ignored (.inr hw)))

/-- Settles O22: the two cases of the rule for `Idle`, whose own name in the model is `edgeInIdle`. -/
theorem edgeInIdle_takesOnlyLeadMark : Obligations.EdgeInIdle := by
  intro m t s h hs
  have hrule := edgeTransition_of_idle (m := m) (l := s.lf) h hs
  refine ⟨?_, fun hignored => exec_edge_of_pending (hrule.trans (edgeInIdle_ignored hignored))⟩
  rintro rfl hw
  exact exec_edge_of_pending (hrule.trans (edgeInIdle_leadMark hw))

/-- Settles O23: a mark, and the three classes of a space. -/
theorem edgeAfterLeadMark : Obligations.EdgeAfterLeadMark := by
  intro t s h hs
  have hrule (m : Bool) := edgeTransition_of_receivingLead (m := m) (l := s.lf) h hs
  refine ⟨?_, fun hw => ?_, fun hw => ?_, fun hw => ?_⟩
  · exact exec_edge_of_abort .order ((hrule true).trans edgeInLead_mark) rfl
  · exact exec_edge_of_pending ((hrule false).trans (edgeInLead_dataLead hw))
  · exact exec_edge_of_repeatReady ((hrule false).trans (edgeInLead_holding hw)) rfl
  · exact exec_edge_of_abort .timing ((hrule false).trans (edgeInLead_neither hw)) rfl

/-- Settles O24: a mark or a space where a mark is due, and a mark where a space is due. -/
theorem edgeOrderInsideBits : Obligations.EdgeOrderInsideBits := by
  intro t s h hs
  have hrule (m : Bool) := edgeTransition_of_receivingData (m := m) (l := s.lf) h hs
  refine ⟨fun hh => ⟨?_, ?_⟩, fun hh => ?_⟩
  · exact exec_edge_of_abort .order ((hrule false).trans (edgeInData_space_early hh)) rfl
  · exact exec_edge_of_pending ((hrule true).trans (edgeInData_mark hh))
  · exact exec_edge_of_abort .order ((hrule true).trans (edgeInData_mark_late hh)) rfl

/-- Settles O25: the class of the pair, then the position of its bit, then the complement test on the full buffer. -/
theorem edgeAtBitSpace : Obligations.EdgeAtBitSpace := by
  intro t s h hs hh
  have hrule := edgeTransition_of_receivingData (m := false) (l := s.lf) h hs
  refine ⟨fun hw => exec_edge_of_abort .timing (hrule.trans (edgeInData_invalid hh hw)) rfl, fun b hw => ?_⟩
  have haccept := hrule.trans (edgeInData_bit hh hw)
  refine ⟨fun hk => ?_, fun hk => ?_⟩
  · exact exec_edge_of_pending (haccept.trans (acceptBit_inner hk))
  · have hlast : s.dec.bitIndex = 31 := BitVec.eq_of_toNat_eq hk
    have hcomplete := haccept.trans (acceptBit_last hlast)
    rw [← hlast]
    refine ⟨fun hgood => ?_, fun hbad => ?_⟩
    · have hready := exec_edge_of_dataReady (hcomplete.trans (completeFrame_good hgood)) rfl
      exact hready
    · exact exec_edge_of_abort .complement (hcomplete.trans (completeFrame_bad hbad)) rfl

end Sys2Proof.Machine
end

section
/-!
PROOFS. The frame API (42_frame_api R190 to R193): the next state of each of its four operations, what `FD_READ` answers and
claims with and without a pending frame, and the statements O32 and O33 assembled from them.
-/

namespace Sys2Proof.Machine

/-! ## The next state of each operation. -/

theorem exec_fdAvail (s : State) : exec .fdAvail s = .next (s.answer .host (flagReply s.lf.pending)) := rfl

theorem exec_fdLastEvt (s : State) : exec .fdLastEvt s = .next (s.answer .host (valueReply s.lf.time)) := rfl

theorem exec_fdTimeout (now : Ts) (s : State) :
    exec (.fdTimeout now) s = .next (s.answer .host (valueReply (subTs s.cfg now s.lf.time))) := rfl

theorem exec_fdRead (s : State) :
    exec .fdRead s = .next ((s.setLf (claimFrame s.lf)).answer .host (readReply s.lf)) := rfl

/-- 30_encoding R101: a one-bit VALUE is 0 or 1. -/
theorem flagReply_eq_ite (b : Bool) : flagReply b = { value := if b then 1 else 0 } := by
  cases b <;> rfl

/-! ## `FD_READ` with and without a pending frame. -/

theorem readReply_of_pending {l : LastDecodedFrame} (h : l.pending = true) : readReply l = frameReply l := if_pos h

theorem readReply_of_not_pending {l : LastDecodedFrame} (h : l.pending = false) : readReply l = valueReply l.time :=
  if_neg (Bool.eq_false_iff.mp h)

/-- Only `frame_pending` is consumed, so with no frame pending there is nothing to consume. -/
theorem claimFrame_of_not_pending {l : LastDecodedFrame} (h : l.pending = false) : claimFrame l = l := by
  rw [claimFrame, ← h]

@[simp] theorem State.setLf_self (s : State) : s.setLf s.lf = s := rfl

theorem exec_fdRead_of_pending {s : State} (h : s.lf.pending = true) :
    exec .fdRead s = .next ((s.setLf (claimFrame s.lf)).answer .host (frameReply s.lf)) := by
  rw [exec_fdRead, readReply_of_pending h]

theorem exec_fdRead_of_not_pending {s : State} (h : s.lf.pending = false) :
    exec .fdRead s = .next (s.answer .host (valueReply s.lf.time)) := by
  rw [exec_fdRead, readReply_of_not_pending h, claimFrame_of_not_pending h, State.setLf_self]

/-! ## The obligations. -/

/-- Settles O32: each of the three reads answers with a VALUE alone and writes nothing but the response. -/
theorem frameStatusReads : Obligations.FrameStatusReads := by
  refine fun s => ⟨?_, exec_fdLastEvt s, fun now => exec_fdTimeout now s⟩
  rw [exec_fdAvail, flagReply_eq_ite]

/-- Settles O33: the two cases of the test and clear of `frame_pending`. -/
theorem frameReadClaimsThePendingFrame : Obligations.FrameReadClaimsThePendingFrame :=
  fun _ => ⟨exec_fdRead_of_pending, exec_fdRead_of_not_pending⟩

end Sys2Proof.Machine
end

section
/-!
PROOFS. The laws of the session (43_button_tracker R200 to R214): its three conditions and the address filter in terms of
the registers, the session after each case of a frame and of a timeout check, and what a session left alone answers.
-/

namespace Sys2Proof.Machine

/-! ## The conditions of a session and the filter. -/

theorem fresh_iff (b : ButtonSession) : fresh b = true ↔ b.pressCount = 0 := beq_iff_eq

theorem timedOut_iff (b : ButtonSession) : timedOut b = true ↔ b.timeoutType = .timeout := by simp [timedOut]

theorem fresh_eq_false_iff (b : ButtonSession) : fresh b = false ↔ b.pressCount ≠ 0 := by
  rw [← Bool.not_eq_true, fresh_iff]

theorem timedOut_eq_false_iff (b : ButtonSession) : timedOut b = false ↔ b.timeoutType ≠ .timeout := by
  rw [← Bool.not_eq_true, timedOut_iff]

theorem active_iff (b : ButtonSession) : active b = true ↔ b.pressCount ≠ 0 ∧ b.timeoutType ≠ .timeout := by
  rw [active, Bool.and_eq_true, Bool.not_eq_true', Bool.not_eq_true', fresh_eq_false_iff, timedOut_eq_false_iff]

/-- Exactly the negation of `active_iff`, as R211 and R214 list it. -/
theorem active_eq_false_iff (b : ButtonSession) :
    active b = false ↔ b.pressCount = 0 ∨ b.timeoutType = .timeout := by
  rw [← Bool.not_eq_true, active_iff, not_and_or, not_not, not_not]

theorem filteredOut_iff (c : Config) (a : Addr) :
    filteredOut c a = true ↔ c.filterEn = true ∧ a ≠ c.filterAddr := by simp [filteredOut]

/-- An address passes when the filter is off or it is the accepted one (R203). -/
theorem filteredOut_eq_false_iff (c : Config) (a : Addr) :
    filteredOut c a = false ↔ c.filterEn = false ∨ a = c.filterAddr := by simp [filteredOut, imp_iff_not_or]

/-! ## The session after a Data frame. -/

theorem trackFrame_of_filtered {c : Config} {a : Addr} (b : ButtonSession) (x : Byte) (t : Ts)
    (h : c.filterEn = true ∧ a ≠ c.filterAddr) : trackFrame c b .dataFrame a x t = b :=
  if_pos ((filteredOut_iff c a).mpr h)

theorem trackFrame_of_accepted {c : Config} {a : Addr} (b : ButtonSession) (x : Byte) (t : Ts)
    (h : c.filterEn = false ∨ a = c.filterAddr) : trackFrame c b .dataFrame a x t = trackData b x t :=
  if_neg (Bool.eq_false_iff.mp ((filteredOut_eq_false_iff c a).mpr h))

section
variable {b : ButtonSession} (x : Byte) (t : Ts)

/-- R204, R205: with no release waiting to be read, whatever the command. -/
theorem trackData_of_fresh_or_consumed
    (h : b.pressCount = 0 ∨ (b.timeoutType = .timeout ∧ b.relFlag = false)) :
    trackData b x t = startPress b x t .noTimeout := by
  have hnew : (fresh b || (timedOut b && !b.relFlag)) = true := by simpa [fresh_iff, timedOut_iff] using h
  exact if_pos hnew

/-- R206, R207: after a press whose release waits to be read, the command alone decides. -/
theorem trackData_of_unconsumed (hp : b.pressCount ≠ 0) (ht : b.timeoutType = .timeout) (hr : b.relFlag = true) :
    trackData b x t = if x = b.lastCommand then pressAgain b t else startPress b x t .newButton := by
  have hfresh : fresh b = false := (fresh_eq_false_iff b).mpr hp
  have hout : timedOut b = true := (timedOut_iff b).mpr ht
  simp [trackData, hfresh, hout, hr]

/-- R208, R209: while a press is active, the command alone decides. -/
theorem trackData_of_active (hp : b.pressCount ≠ 0) (ht : b.timeoutType ≠ .timeout) :
    trackData b x t =
      if x = b.lastCommand then { b with lastEventTime := t } else raiseFlags (startPress b x t .newButton) := by
  have hfresh : fresh b = false := (fresh_eq_false_iff b).mpr hp
  have hout : timedOut b = false := (timedOut_eq_false_iff b).mpr ht
  simp [trackData, hfresh, hout]

end

/-! ## The session after a Repeat frame and after a timeout check. -/

theorem trackRepeat_of_active {b : ButtonSession} (t : Ts) (h : active b = true) :
    trackRepeat b t = { b with holdCount := satInc b.holdCount, lastEventTime := t } := if_pos h

theorem trackRepeat_of_not_active {b : ButtonSession} (t : Ts) (h : active b = false) : trackRepeat b t = b :=
  if_neg (Bool.eq_false_iff.mp h)

theorem checkTimeout_of_expired {c : Config} {b : ButtonSession} {now : Ts} (ha : active b = true)
    (he : c.tRelease < (elapsedOf c b now).toNat) :
    checkTimeout c b now = raiseFlags { b with timeoutType := .timeout } := by
  simp [checkTimeout, ha, he]

theorem checkTimeout_of_not_expired {c : Config} {b : ButtonSession} {now : Ts}
    (h : active b = false ∨ (elapsedOf c b now).toNat ≤ c.tRelease) : checkTimeout c b now = b := by
  rcases h with ha | he
  · simp [checkTimeout, ha]
  · simp [checkTimeout, he]

/-- R214: a timeout check keeps the command and both counts. -/
theorem checkTimeout_keeps_counts (c : Config) (b : ButtonSession) (now : Ts) :
    (checkTimeout c b now).lastCommand = b.lastCommand ∧ (checkTimeout c b now).pressCount = b.pressCount ∧
      (checkTimeout c b now).holdCount = b.holdCount := by
  rcases checkTimeout_cases c b now with ⟨_, _, h⟩ | ⟨_, h⟩ <;> simp [h]

/-! ## A session left alone. -/

@[simp] theorem State.setBt_self (s : State) : s.setBt s.bt = s := rfl

/-- A transition that leaves the session alone writes nothing but the response. -/
theorem State.trackTo_self (s : State) : s.trackTo s.bt = s.answer .host (snapshotReply s.bt) := rfl

end Sys2Proof.Machine
end

section
/-!
PROOFS. `BT_FRAME` (43_button_tracker R201 to R212): the next state for each kind of frame, and the statements O35 to O40
assembled from it and the laws of the session.
-/

namespace Sys2Proof.Machine

/-! ## The next state by the kind of frame. -/

section
variable (a : Addr) (x : Byte) (t : Ts) {s : State}

theorem exec_btFrame (k : KindField) (s : State) :
    exec (.btFrame k a x t) s = .next (s.trackTo (trackFrame s.cfg s.bt k a x t)) := rfl

theorem exec_btFrame_filtered (h : s.cfg.filterEn = true ∧ a ≠ s.cfg.filterAddr) :
    exec (.btFrame .dataFrame a x t) s = .next (s.answer .host (snapshotReply s.bt)) := by
  rw [exec_btFrame, trackFrame_of_filtered s.bt x t h, State.trackTo_self]

theorem exec_btFrame_accepted (h : s.cfg.filterEn = false ∨ a = s.cfg.filterAddr) :
    exec (.btFrame .dataFrame a x t) s = .next (s.trackTo (trackData s.bt x t)) := by
  rw [exec_btFrame, trackFrame_of_accepted s.bt x t h]

/-- R210: the filter and the operands but the time are not looked at. -/
theorem exec_btFrame_repeat (s : State) :
    exec (.btFrame .repeatFrame a x t) s = .next (s.trackTo (trackRepeat s.bt t)) := rfl

end

/-! ## The obligations. -/

/-- Settles O35: one case per kind of frame; the two that look at the session or the filter are their own lemmas. -/
theorem framesThatChangeNothing : Obligations.FramesThatChangeNothing := by
  rintro k a x t s (rfl | rfl | ⟨rfl, hfilter⟩ | ⟨rfl, hinactive⟩)
  · exact exec_btFrame_noProtocol a x t s
  · exact exec_btFrame_noProtocol a x t s
  · exact exec_btFrame_filtered a x t hfilter
  · rw [exec_btFrame_repeat, trackRepeat_of_not_active t ((active_eq_false_iff s.bt).mpr hinactive), State.trackTo_self]
    rfl

/-- Settles O36: a Data frame of another address, the filter off, the filter on, and a Repeat frame. -/
theorem addressFilter : Obligations.AddressFilter := by
  intro a a' x t s
  refine ⟨fun hon hother => ?_, fun h => ?_, ?_, fun fe fa => ?_⟩
  · exact exec_btFrame_filtered a x t ⟨hon, hother⟩
  · rw [exec_btFrame_accepted a x t (.inl h), exec_btFrame_accepted a' x t (.inl h)]
  · exact ⟨_, _, exec_btFrame_accepted s.cfg.filterAddr x t (.inr rfl), exec_btFrame_accepted a x t (.inl rfl), rfl⟩
  · exact ⟨_, _, exec_btFrame_repeat a x t s, exec_btFrame_repeat a' x t _, rfl, rfl⟩

/-- Settles O37: the frame passes the filter and starts a press whose type is `NoTimeout`. -/
theorem newPress : Obligations.NewPress := by
  intro a x t s hpass hnew
  rw [exec_btFrame_accepted a x t hpass, trackData_of_fresh_or_consumed x t hnew]
  rfl

/-- Settles O38: the press count goes on for the same command, and another command starts at 1. -/
theorem pressAfterUnconsumedRelease : Obligations.PressAfterUnconsumedRelease := by
  intro a x t s hpass hp ht hr
  rw [exec_btFrame_accepted a x t hpass, trackData_of_unconsumed x t hp ht hr]
  refine ⟨?_, fun hother => ?_⟩
  · rintro rfl
    rw [if_pos rfl]
    rfl
  · rw [if_neg hother]
    rfl

/-- Settles O39: the press goes on for the same command, and another command ends it. -/
theorem dataFrameWhileActive : Obligations.DataFrameWhileActive := by
  intro a x t s hpass hp ht
  rw [exec_btFrame_accepted a x t hpass, trackData_of_active x t hp ht]
  refine ⟨fun hsame => ?_, fun hother => ?_⟩
  · rw [if_pos hsame]
    rfl
  · rw [if_neg hother]
    rfl

/-- Settles O40: a Repeat frame while a press is active. -/
theorem repeatFrameHolds : Obligations.RepeatFrameHolds := by
  intro a x t s hp ht
  rw [exec_btFrame_repeat, trackRepeat_of_active t ((active_iff s.bt).mpr ⟨hp, ht⟩)]
  rfl

end Sys2Proof.Machine
end

section
/-!
PROOFS. `BT_CHKTO` and `BT_POLL` (43_button_tracker R213 to R215): `BT_POLL` as the one operation or the other, and the
statements O41 and O42.
-/

namespace Sys2Proof.Machine

theorem exec_btChkTo (now : Ts) (s : State) :
    exec (.btChkTo now) s = .next (s.trackTo (checkTimeout s.cfg s.bt now)) := rfl

theorem exec_btPoll_of_pending (now : Ts) {s : State} (h : s.lf.pending = true) :
    exec (.btPoll now) s =
      exec (.btFrame s.lf.kind.field s.lf.address s.lf.command s.lf.time) (s.setLf (claimFrame s.lf)) := if_pos h

theorem exec_btPoll_of_not_pending (now : Ts) {s : State} (h : s.lf.pending = false) :
    exec (.btPoll now) s = exec (.btChkTo now) s := if_neg (Bool.eq_false_iff.mp h)

/-- Whether it claims or checks, `BT_POLL` leaves the same frame, and no longer pending (10_state R32). -/
theorem exec_btPoll_claims (now : Ts) (s : State) :
    ∃ u : State, exec (.btPoll now) s = .next u ∧ u.lf = claimFrame s.lf := by
  cases h : s.lf.pending
  case true => exact ⟨_, exec_btPoll_of_pending now h, rfl⟩
  case false => exact ⟨_, exec_btPoll_of_not_pending now h, (claimFrame_of_not_pending h).symm⟩

/-- Settles O41: the timeout check on an active press whose time is up, and on any other session. -/
theorem checkTimeoutRegistersOneRelease : Obligations.CheckTimeoutRegistersOneRelease := by
  intro now s
  refine ⟨fun hp ht helapsed => ?_, fun h => ?_⟩
  · rw [exec_btChkTo, checkTimeout_of_expired ((active_iff s.bt).mpr ⟨hp, ht⟩) helapsed]
    rfl
  · have hkeep : active s.bt = false ∨ (elapsedOf s.cfg s.bt now).toNat ≤ s.cfg.tRelease := by
      rwa [active_eq_false_iff, or_assoc]
    rw [exec_btChkTo, checkTimeout_of_not_expired hkeep, State.trackTo_self]
    rfl

/-- Settles O42: the second poll finds no frame pending, so it is a timeout check, which keeps command and counts. -/
theorem pollClaimsOrChecks : Obligations.PollClaimsOrChecks := by
  refine ⟨fun now s => ⟨fun h => ?_, fun h => ?_⟩, fun n1 n2 s => ?_⟩
  · exact ⟨_, exec_btPoll_of_pending now h, rfl, rfl⟩
  · exact ⟨_, exec_btPoll_of_not_pending now h, rfl, rfl⟩
  · obtain ⟨u, hfirst, hlf⟩ := exec_btPoll_claims n1 s
    have hsecond : exec (.btPoll n2) u = exec (.btChkTo n2) u := exec_btPoll_of_not_pending n2 (by simp [hlf])
    obtain ⟨hcmd, hpress, hhold⟩ := checkTimeout_keeps_counts u.cfg u.bt n2
    exact ⟨u, _, hfirst, hsecond, hcmd, hpress, hhold, rfl, rfl⟩

end Sys2Proof.Machine
end

section
/-!
PROOFS. The accessors of the tracker and `BT_RESET` (43_button_tracker R216 to R222): the VALUE each read answers, the
one-shot reads on a flag that is already clear, and the statements O43 to O45.
-/

namespace Sys2Proof.Machine

/-! ## The reads that change no register. -/

/-- 30_encoding R101: an 8-bit VALUE is zero-extended. -/
theorem byteReply_eq_append (x : Byte) : byteReply x = { value := (0#24) ++ x } := by
  rw [byteReply, BitVec.setWidth_eq_append (by decide)]
  rfl

theorem exec_btCmd (s : State) : exec .btCmd s = .next (s.answer .host (byteReply s.bt.lastCommand)) := rfl

theorem exec_btPressCnt (s : State) : exec .btPressCnt s = .next (s.answer .host (byteReply s.bt.pressCount)) := rfl

theorem exec_btToType (s : State) :
    exec .btToType s = .next (s.answer .host (valueReply (s.bt.timeoutType.bits.setWidth 32))) := rfl

theorem exec_btHoldCnt (n : Byte) (s : State) :
    exec (.btHoldCnt n) s = .next (s.answer .host (byteReply (debouncedHold s.bt n))) := rfl

theorem debouncedHold_of_lt {b : ButtonSession} {n : Byte} (h : n.toNat < b.holdCount.toNat) :
    debouncedHold b n = b.holdCount := if_pos h

theorem debouncedHold_of_le {b : ButtonSession} {n : Byte} (h : b.holdCount.toNat ≤ n.toNat) :
    debouncedHold b n = 0 := if_neg (Nat.not_lt.mpr h)

/-! ## The one-shot reads. -/

theorem exec_btPressTo (s : State) :
    exec .btPressTo s = .next ((s.setBt (clearToFlag s.bt)).answer .host (flagReply s.bt.toFlag)) := rfl

theorem exec_btRelease (s : State) :
    exec .btRelease s = .next ((s.setBt (clearRelFlag s.bt)).answer .host (flagReply s.bt.relFlag)) := rfl

theorem clearToFlag_of_clear {b : ButtonSession} (h : b.toFlag = false) : clearToFlag b = b := by
  rw [clearToFlag, ← h]

theorem clearRelFlag_of_clear {b : ButtonSession} (h : b.relFlag = false) : clearRelFlag b = b := by
  rw [clearRelFlag, ← h]

theorem exec_btPressTo_of_clear {s : State} (h : s.bt.toFlag = false) :
    exec .btPressTo s = .next (s.answer .host {}) := by
  rw [exec_btPressTo, clearToFlag_of_clear h, State.setBt_self, h]
  rfl

theorem exec_btRelease_of_clear {s : State} (h : s.bt.relFlag = false) :
    exec .btRelease s = .next (s.answer .host {}) := by
  rw [exec_btRelease, clearRelFlag_of_clear h, State.setBt_self, h]
  rfl

/-! ## `BT_RESET`. -/

theorem exec_btReset (s : State) : exec .btReset s = .next ((s.setBt .reset).answer .host (valueReply 0)) := rfl

/-! ## The obligations. -/

/-- Settles O43: each VALUE zero-extended; for `BT_HOLDCNT` the two sides of the threshold. -/
theorem trackerReads : Obligations.TrackerReads := by
  refine fun s => ⟨?_, ?_, ?_, fun n => ⟨fun habove => ?_, fun hbelow => ?_⟩⟩
  · rw [exec_btCmd, byteReply_eq_append]
  · rw [exec_btPressCnt, byteReply_eq_append]
  · rw [exec_btToType, BitVec.setWidth_eq_append (by decide)]
    rfl
  · rw [exec_btHoldCnt, debouncedHold_of_lt habove, byteReply_eq_append]
  · rw [exec_btHoldCnt, debouncedHold_of_le hbelow]
    rfl

/-- Settles O44: the first read answers the flag and leaves it clear, so the second one finds it clear. -/
theorem oneShotFlagsReadAndClear : Obligations.OneShotFlagsReadAndClear := by
  refine fun s => ⟨?_, ?_, ⟨_, exec_btPressTo s, ?_⟩, ⟨_, exec_btRelease s, ?_⟩⟩
  · rw [exec_btPressTo, flagReply_eq_ite]
    rfl
  · rw [exec_btRelease, flagReply_eq_ite]
    rfl
  · exact exec_btPressTo_of_clear rfl
  · exact exec_btRelease_of_clear rfl

/-- Settles O45: the reset session written out is the whole of what `BT_RESET` writes. -/
theorem sessionResetClearsOnlyTheSession : Obligations.SessionResetClearsOnlyTheSession :=
  exec_btReset

end Sys2Proof.Machine
end

section
/-!
PROOFS. The abort (60_exceptions R253, R254): `EDGE` answers `Error` only by an `abort` outside `Idle`, within the absolute
timeout; the statement O27 assembled from it.
-/

namespace Sys2Proof.Machine

theorem ErrorCause.bits_cases (cause : ErrorCause) : cause.bits = 1 ∨ cause.bits = 2 ∨ cause.bits = 3 := by
  cases cause <;> decide

/-- R152: the timeout leaves the decode state in `Idle`, so an edge that reaches another state rule had none. -/
theorem edgePrepare_of_st_ne_idle {c : Config} {t : Ts} {d : DecodeState} (h : (edgePrepare c t d).st ≠ .idle) :
    d.st ≠ .idle ∧ edgePrepare c t d = { d with lastEdgeTime := t } := by
  rcases edgePrepare_cases c t d with ⟨-, hkept⟩ | ⟨-, hcleared⟩
  · rw [hkept] at h
    exact ⟨h, hkept⟩
  · rw [hcleared] at h
    exact absurd (DecodeState.clear_st _) h

/-- Of the moves of `EDGE` only `abort` has DRES = 2. -/
theorem EdgeMove.eq_abort_of_error {c : Config} {m : Bool} {t dur : Ts} {e : DecodeState} {l : LastDecodedFrame}
    {o : EdgeOutcome} (hmove : EdgeMove c m t dur e l o) (herr : o.result.reply.dres = 2) :
    e.st ≠ .idle ∧ ∃ cause, o = abort cause e l := by
  cases hmove with
  | aborted cause hs => exact ⟨hs, cause, rfl⟩
  | _ => simp [DecodeResult.reply] at herr

/-- R254: `Error` is raised only by an `abort` outside `Idle`, with nothing but `last_edge_time` written before it. -/
theorem edgeTransition_eq_abort_of_error {c : Config} {m : Bool} {t : Ts} {d : DecodeState} {l : LastDecodedFrame}
    (herr : (edgeTransition c m t d l).result.reply.dres = 2) :
    d.st ≠ .idle ∧ ∃ cause, edgeTransition c m t d l = abort cause { d with lastEdgeTime := t } l := by
  obtain ⟨hprep, cause, habort⟩ := (edgeDispatch_moves ..).eq_abort_of_error herr
  obtain ⟨hs, hkept⟩ := edgePrepare_of_st_ne_idle hprep
  refine ⟨hs, cause, ?_⟩
  rw [edgeTransition, habort, hkept]

/-- Settles O27: an `Error` is an `abort`, whose next state is that of `exec_edge_of_abort`. -/
theorem abortClearsOnlyTheDecodeState : Obligations.AbortClearsOnlyTheDecodeState := by
  intro m t s
  by_cases herr : (edgeTransition s.cfg m t s.dec s.lf).result.reply.dres = 2
  · obtain ⟨hs, cause, habort⟩ := edgeTransition_eq_abort_of_error herr
    refine ⟨_, _, exec_edge_of_abort cause habort rfl, State.answer_response .., fun _ => ⟨hs, rfl, rfl, rfl, rfl, ?_⟩⟩
    rw [causeOf_word]
    exact cause.bits_cases
  · refine ⟨_, _, execEdge_next m t s, State.answer_response .., fun hdres => absurd ?_ herr⟩
    rwa [dresOf_word] at hdres

end Sys2Proof.Machine
end

section
/-!
PROOFS. Decoding (30_encoding R99 to R102): a canonical word read back on its port, a decoded time operand that fits its
field, the vectors' words and the layout of a response word; the statements O1, O3, O5 and O6 assembled from them.
-/

namespace Sys2Proof.Machine

/-! ## Canonical words read back. -/

theorem decode_formatE (c : Config) (m : Bool) {t : Ts} (h : timeFits c t = true) :
    decode c .edge (formatE 0x1 m t) = .edge m t := by
  simp [decode, decodeEdgePort, truncTs_of_fits c h]

theorem decode_formatF (c : Config) (k : KindField) (a : Addr) (x : Byte) {t : Ts} (h : timeFits c t = true) :
    decode c .host (formatF 0x6 k a x t) = .btFrame k a x t := by
  simp [decode, decodeHostPort, truncTs_of_fits c h]

/-- Settles O1: an operation's format names its opcode and each of its operands, and a time operand that fits is not
cut. -/
theorem decodeReadsBackEveryOperation : Obligations.DecodeReadsBackEveryOperation := by
  intro c i h
  cases i with
  | illegal p => cases p <;> simp [encode, decode, decodeEdgePort, decodeHostPort]
  | edge m t => exact decode_formatE c m h
  | btFrame k a x t => exact decode_formatF c k a x h
  | fdTimeout t | btChkTo t | btPoll t => simp [encode, decode, decodeHostPort, truncTs_of_fits c h]
  | _ => simp [encode, decode, decodeHostPort]

/-! ## Decoded operands. -/

theorem timeField_fits (c : Config) (w : Word) : timeFits c (timeField c w) = true := truncTs_fits c _

/-- R102: every time operand is a `timeField`, whatever the word. -/
theorem decode_wellFormed (c : Config) (p : Port) (w : Word) : (decode c p w).wellFormed c = true := by
  cases p with
  | edge =>
    simp only [decode, decodeEdgePort]
    split
    · exact timeField_fits c w
    · rfl
  | host =>
    simp only [decode, decodeHostPort]
    split
    case h_3 | h_5 | h_6 | h_7 => exact timeField_fits c w
    all_goals rfl

/-- Settles O3. -/
theorem decodedOperandsFitTheirFields : Obligations.DecodedOperandsFitTheirFields := decode_wellFormed

/-- Settles O5: six words, evaluated. -/
theorem vectorWordsDecode : Obligations.VectorWordsDecode := by
  unfold Obligations.VectorWordsDecode
  decide

/-! ## Response words. -/

/-- Settles O6: each field of `Reply.word` reads back. -/
theorem responseWordLayout : Obligations.ResponseWordLayout := fun r =>
  ⟨illOf_word r, dresOf_word r, bit60_word r, kindOf_word r, addressOf_word r, commandOf_word r, causeOf_word r,
    valueOf_word r⟩

end Sys2Proof.Machine
end

section
/-!
PROOFS. `FD_READ` passed on as `BT_FRAME` (42_frame_api R194): the fields of a response word under the opcode 0x6 are the
operands of `BT_FRAME`; the statement O34 assembled from it.
-/

namespace Sys2Proof.Machine

/-- A field of the 60 bits below the opcode. -/
theorem extract_retagged (op : BitVec 4) (w : Word) {start len : Nat} (h : start + len ≤ 60) :
    (op ++ w.extractLsb' 0 60 : Word).extractLsb' start len = w.extractLsb' start len := by
  rw [extract_append_low _ _ h, BitVec.extractLsb'_extractLsb'_of_le h]

@[simp] theorem opcodeOf_retagged (op : BitVec 4) (w : Word) : opcodeOf (op ++ w.extractLsb' 0 60) = op := by
  rw [opcodeOf, extract_append_high _ _ (by omega)]
  exact extract_all op

/-- R194: the fields of a response stand where `BT_FRAME` has its operands. -/
theorem decode_retagged (c : Config) (w : Word) :
    decode c .host (0x6#4 ++ w.extractLsb' 0 60) =
      .btFrame (KindField.ofBits (kindOf w)) (addressOf w) (commandOf w) (truncTs c (valueOf w)) := by
  simp only [decode, decodeHostPort, opcodeOf_retagged, kindField, addressField, commandField, timeField]
  simp (disch := decide) only [extract_retagged, kindOf, addressOf, commandOf, valueOf]

theorem FrameKind.ofBits_bits (k : FrameKind) : KindField.ofBits k.bits = k.field := by cases k <;> rfl

theorem decode_retagged_frameReply (c : Config) {l : LastDecodedFrame} (h : timeFits c l.time = true) :
    decode c .host (0x6#4 ++ (frameReply l).word.extractLsb' 0 60) =
      .btFrame l.kind.field l.address l.command l.time := by
  simp [decode_retagged, frameReply, FrameKind.ofBits_bits, truncTs_of_fits c h]

/-- `BT_FRAME` overwrites the response and reads none. -/
theorem exec_btFrame_answer (k : KindField) (a : Addr) (x : Byte) (t : Ts) (s : State) (p : Port) (r : Reply) :
    exec (.btFrame k a x t) (s.answer p r) = exec (.btFrame k a x t) s := rfl

/-- Settles O34: both ways claim the frame and hand the tracker the same operands. -/
theorem readThenFrameIsPoll : Obligations.ReadThenFrameIsPoll := by
  intro s now hp ht
  have hdecode := decode_retagged_frameReply s.cfg ht
  refine ⟨_, _, _, exec_fdRead_of_pending hp, State.answer_response .., hdecode, ?_, exec_btPoll_of_pending now hp⟩
  rw [hdecode, exec_btFrame_answer, exec_btFrame]

end Sys2Proof.Machine
end

section
/-!
PROOFS. What an operation leaves unchanged (10_state R20, 41_frame_decoder R167, 60_exceptions R262): the registers each
host operation writes and the ones it looks at, the frame registers `EDGE` writes and the ones it looks at; the statements
O10, O26, O28 and O46 assembled from them.
-/

namespace Sys2Proof.Machine

/-! ## Host operations. -/

/-- The frame registers after a host operation: the two that may claim leave no frame pending (R191, R215). -/
def frameAfter (l : LastDecodedFrame) (i : Instr) : LastDecodedFrame := if mayClaim i then claimFrame l else l

/-- The session after an operation. -/
def sessionAfter (c : Config) (l : LastDecodedFrame) (b : ButtonSession) : Instr → ButtonSession
  | .btFrame kind address command t => trackFrame c b kind address command t
  | .btChkTo now => checkTimeout c b now
  | .btPoll now => if l.pending then trackFrame c b l.kind.field l.address l.command l.time else checkTimeout c b now
  | .btPressTo => clearToFlag b
  | .btRelease => clearRelFlag b
  | .btReset => .reset
  | .illegal _ | .edge _ _ | .fdAvail | .fdRead | .fdTimeout _ | .fdLastEvt | .btCmd | .btPressCnt | .btHoldCnt _
  | .btToType => b

/-- What a host operation answers. -/
def hostReply (c : Config) (l : LastDecodedFrame) (b : ButtonSession) : Instr → Reply
  | .illegal _ | .edge _ _ => {}
  | .fdAvail => flagReply l.pending
  | .fdRead => readReply l
  | .fdTimeout now => valueReply (subTs c now l.time)
  | .fdLastEvt => valueReply l.time
  | .btFrame kind address command t => snapshotReply (trackFrame c b kind address command t)
  | .btChkTo now => snapshotReply (checkTimeout c b now)
  | .btPoll now => snapshotReply (sessionAfter c l b (.btPoll now))
  | .btCmd => byteReply b.lastCommand
  | .btPressCnt => byteReply b.pressCount
  | .btHoldCnt debounce => byteReply (debouncedHold b debounce)
  | .btPressTo => flagReply b.toFlag
  | .btRelease => flagReply b.relFlag
  | .btToType => valueReply (b.timeoutType.bits.setWidth 32)
  | .btReset => valueReply 0

/-- The whole of a host operation: what it writes and answers depends on the configuration, the frame registers and the
session alone. -/
theorem exec_hostOp_eq (i : Instr) (s : State) (h : isHostOp i = true) :
    exec i s = .next (((s.setLf (frameAfter s.lf i)).setBt (sessionAfter s.cfg s.lf s.bt i)).answer .host
      (hostReply s.cfg s.lf s.bt i)) := by
  cases i with
  | illegal p | edge m t => simp [isHostOp] at h
  | btPoll now =>
    cases hp : s.lf.pending
    case true =>
      rw [exec_btPoll_of_pending now hp, exec_btFrame]
      simp only [hostReply, sessionAfter, hp, if_true]
      rfl
    case false =>
      rw [exec_btPoll_of_not_pending now hp, exec_btChkTo]
      simp only [hostReply, sessionAfter, frameAfter, mayClaim, claimFrame_of_not_pending hp, hp, if_true, if_false,
        Bool.false_eq_true]
      rfl
  | _ => rfl

theorem frameAfter_cases (l : LastDecodedFrame) (i : Instr) :
    frameAfter l i = l ∨ (mayClaim i = true ∧ frameAfter l i = claimFrame l) := by
  unfold frameAfter
  cases mayClaim i <;> simp

theorem claimFrame_frameAfter (l : LastDecodedFrame) (i : Instr) : claimFrame (frameAfter l i) = claimFrame l := by
  rcases frameAfter_cases l i with h | ⟨-, h⟩
  · rw [h]
  · rw [h, claimFrame, claimFrame]

theorem sessionAfter_of_not_mayWriteSession (c : Config) (l : LastDecodedFrame) (b : ButtonSession) {i : Instr}
    (h : mayWriteSession i = false) : sessionAfter c l b i = b := by
  cases i with
  | btFrame | btChkTo | btPoll | btPressTo | btRelease | btReset => simp [mayWriteSession] at h
  | _ => rfl

/-- Settles O46: a claim keeps the frame data and only lowers `frame_pending`. -/
theorem hostOperationsKeepTheDecoder : Obligations.HostOperationsKeepTheDecoder := by
  intro i s h
  refine ⟨_, exec_hostOp_eq i s h, ?_⟩
  have hsession : mayWriteSession i = false → sessionAfter s.cfg s.lf s.bt i = s.bt :=
    sessionAfter_of_not_mayWriteSession s.cfg s.lf s.bt
  rcases frameAfter_cases s.lf i with hl | ⟨hclaim, hl⟩
  · simpa [hl] using hsession
  · simpa [hl, hclaim] using hsession

/-! ## The frame registers after `EDGE`. -/

section
variable {c : Config} {m : Bool} {t dur : Ts} {e : DecodeState} {l : LastDecodedFrame} {o : EdgeOutcome}

theorem EdgeMove.lastEdgeTime_eq (h : EdgeMove c m t dur e l o) : o.dec.lastEdgeTime = e.lastEdgeTime := by
  cases h <;> simp

/-- `EDGE` keeps the frame registers, or stores a frame, pending, and answers `FrameReady`. -/
theorem EdgeMove.lf_kept_or_stored (h : EdgeMove c m t dur e l o) :
    o.lf = l ∨ (o.result.reply.dres = 1 ∧ o.lf.kind ≠ .noProtocol ∧ o.lf.time = t ∧ o.lf.pending = true) := by
  cases h with
  | repeatFound | dataFound => exact .inr ⟨rfl, by simp, rfl, rfl⟩
  | _ => exact .inl rfl

end

theorem edgeTransition_lastEdgeTime (c : Config) (m : Bool) (t : Ts) (d : DecodeState) (l : LastDecodedFrame) :
    (edgeTransition c m t d l).dec.lastEdgeTime = t :=
  (edgeDispatch_moves ..).lastEdgeTime_eq.trans (edgePrepare_lastEdgeTime c t d)

theorem edgeTransition_lf (c : Config) (m : Bool) (t : Ts) (d : DecodeState) (l : LastDecodedFrame) :
    (edgeTransition c m t d l).lf = l ∨
      ((edgeTransition c m t d l).result.reply.dres = 1 ∧ (edgeTransition c m t d l).lf.kind ≠ .noProtocol ∧
        (edgeTransition c m t d l).lf.time = t ∧ (edgeTransition c m t d l).lf.pending = true) :=
  (edgeDispatch_moves ..).lf_kept_or_stored

theorem edgeTransition_lf_of_dres {c : Config} {m : Bool} {t : Ts} {d : DecodeState} {l : LastDecodedFrame}
    (h : (edgeTransition c m t d l).result.reply.dres ≠ 1) : (edgeTransition c m t d l).lf = l :=
  (edgeTransition_lf c m t d l).resolve_right fun hstored => h hstored.1

/-- Settles O26: the frame registers are kept or a frame is stored; `EDGE` writes neither the session nor the ports. -/
theorem edgeFrame : Obligations.EdgeFrame := by
  intro m t s
  have hlf := edgeTransition_lf s.cfg m t s.dec s.lf
  refine ⟨_, execEdge_next m t s, edgeTransition_lastEdgeTime .., rfl, rfl, ?_, ?_, ⟨_, rfl, ?_⟩, rfl, rfl, rfl, rfl⟩
  · rcases hlf with hkept | ⟨-, -, -, hpending⟩
    · simp [hkept]
    · simp [hpending]
  · rcases hlf with hkept | ⟨-, hkind, -⟩
    · simp [hkept]
    · simp [hkind]
  · rw [dresOf_word]
    exact edgeTransition_lf_of_dres

/-! ## What `EDGE` looks at. -/

/-- The outcomes of `EDGE` as functions of the frame registers: only a Repeat frame takes anything over from them, and it
does not take `frame_pending`. -/
inductive EdgeRule (t : Ts) : (LastDecodedFrame → EdgeOutcome) → Prop where
  | pending (d : DecodeState) : EdgeRule t (pendingWith d)
  | repeatFound (d : DecodeState) : EdgeRule t (repeatReady t d)
  | dataFound (d : DecodeState) : EdgeRule t (fun _ => dataReady t d)
  | aborted (cause : ErrorCause) (d : DecodeState) : EdgeRule t (abort cause d)

theorem acceptBit_rule (b : Bool) (t : Ts) (d : DecodeState) : EdgeRule t (acceptBit b t d) := by
  unfold acceptBit completeFrame
  by_cases hk : d.bitIndex < 31#5
  · simpa only [hk, if_true] using .pending _
  · cases hg : complementGood (putBit b d).buf
    · simpa only [hk, hg, if_false, Bool.false_eq_true] using .aborted .complement _
    · simpa only [hk, hg, if_false, if_true] using .dataFound _

theorem edgeInIdle_rule (c : Config) (m : Bool) (t dur : Ts) (d : DecodeState) :
    EdgeRule t (edgeInIdle c m dur d) := by
  unfold edgeInIdle
  cases m && inWindow c dur c.mLeadMark
  · exact .pending _
  · exact .pending _

theorem edgeInLead_rule (c : Config) (m : Bool) (t dur : Ts) (d : DecodeState) :
    EdgeRule t (edgeInLead c m t dur d) := by
  unfold edgeInLead
  cases m
  · cases classifyLeadSpace c dur
    · exact .pending _
    · exact .repeatFound _
    · exact .aborted .timing _
  · exact .aborted .order _

theorem edgeInData_rule (c : Config) (m : Bool) (t dur : Ts) (d : DecodeState) :
    EdgeRule t (edgeInData c m t dur d) := by
  unfold edgeInData
  cases d.half <;> cases m
  · exact .aborted .order _
  · exact .pending _
  · cases classifyBit c d.markDur dur
    · exact acceptBit_rule false t d
    · exact acceptBit_rule true t d
    · exact .aborted .timing _
  · exact .aborted .order _

theorem edgeTransition_rule (c : Config) (m : Bool) (t : Ts) (d : DecodeState) :
    EdgeRule t (edgeTransition c m t d) := by
  unfold edgeTransition edgeDispatch
  cases (edgePrepare c t d).st
  · exact edgeInIdle_rule ..
  · exact edgeInLead_rule ..
  · exact edgeInData_rule ..

/-- Two frame registers that differ in `frame_pending` alone (claiming both makes them equal). -/
theorem frameData_of_claimFrame_eq {l l' : LastDecodedFrame} (h : claimFrame l = claimFrame l') :
    l.kind = l'.kind ∧ l.address = l'.address ∧ l.command = l'.command ∧ l.time = l'.time := by
  have hfields := LastDecodedFrame.mk.inj h
  tauto

/-- R167: `frame_pending` matters to nothing but itself. -/
theorem EdgeRule.ignores_pending {t : Ts} {f : LastDecodedFrame → EdgeOutcome} (hf : EdgeRule t f)
    {l l' : LastDecodedFrame} (h : claimFrame l = claimFrame l') :
    (f l).dec = (f l').dec ∧ (f l).result = (f l').result ∧ claimFrame (f l).lf = claimFrame (f l').lf := by
  cases hf with
  | repeatFound d =>
    obtain ⟨-, ha, hx, -⟩ := frameData_of_claimFrame_eq h
    simp [repeatReady, storeRepeat, claimFrame, ha, hx]
  | pending | aborted => exact ⟨rfl, rfl, h⟩
  | dataFound => exact ⟨rfl, rfl, rfl⟩

/-- R150: the filter and `T_RELEASE` are no parameters of the decoder. -/
theorem edgeTransition_ignores_filter_and_release (c : Config) (fe : Bool) (fa : Addr) (tr : Nat) (m : Bool) (t : Ts)
    (d : DecodeState) (l : LastDecodedFrame) :
    edgeTransition { c with filterEn := fe, filterAddr := fa, tRelease := tr } m t d l = edgeTransition c m t d l :=
  rfl

/-- Settles O28: neither the configuration's three fields nor `frame_pending` matter. -/
theorem edgeIgnoresSessionFilterAndRelease : Obligations.EdgeIgnoresSessionFilterAndRelease := by
  intro m t s b pending fe fa tr
  refine ⟨_, _, execEdge_next m t s, execEdge_next m t _, ?_⟩
  simp only [edgeTransition_ignores_filter_and_release]
  have hclaim : claimFrame s.lf = claimFrame { s.lf with pending := pending } := rfl
  obtain ⟨hdec, hresult, hlf⟩ := (edgeTransition_rule s.cfg m t s.dec).ignores_pending hclaim
  obtain ⟨hk, ha, hx, ht⟩ := frameData_of_claimFrame_eq hlf
  exact ⟨hdec, hk, ha, hx, ht, by simp [hresult], rfl⟩

/-! ## An `EDGE` and a host operation in both orders. -/

/-- Settles O10: the host operation leaves `EDGE` everything it looks at; and where `EDGE` stores no frame, it leaves the host
operation everything that one looks at. -/
theorem edgeAndHostOrdersDifferOnlyInFrameVisibility : Obligations.EdgeAndHostOrdersDifferOnlyInFrameVisibility := by
  intro m t i s hi
  obtain ⟨hdec, hresult, hlf⟩ := (edgeTransition_rule s.cfg m t s.dec).ignores_pending (claimFrame_frameAfter s.lf i)
  have hdata := hlf.trans (claimFrame_frameAfter _ i).symm
  obtain ⟨hk, ha, hx, ht⟩ := frameData_of_claimFrame_eq hdata
  refine ⟨_, _, _, _, execEdge_next m t s, exec_hostOp_eq i s hi, exec_hostOp_eq i _ hi, execEdge_next m t _,
    hdec.symm, hk.symm, ha.symm, hx.symm, ht.symm, rfl, by simp [hresult], fun w hw hdres => ?_⟩
  have hnone : (edgeTransition s.cfg m t s.dec s.lf).result.reply.dres ≠ 1 := by
    have hword : (edgeTransition s.cfg m t s.dec s.lf).result.reply.word = w := by simpa using hw
    rwa [← dresOf_word, hword]
  have hkept : (edgeTransition s.cfg m t s.dec s.lf).lf = s.lf := edgeTransition_lf_of_dres hnone
  have hkept' : (edgeTransition s.cfg m t s.dec (frameAfter s.lf i)).lf = frameAfter s.lf i :=
    edgeTransition_lf_of_dres (hresult ▸ hnone)
  simp [hkept, hkept']

end Sys2Proof.Machine
end

section
/-!
PROOFS. Steps (20_memory R73, R79; 60_exceptions R256, R265; 70_reset R280): which input is accepted, what a step does with
it, when a step is refused, and what no step writes; the statements O8, O9 and O12 to O15 assembled from them.
-/

namespace Sys2Proof.Machine

/-! ## The input accepted next. -/

section
variable {q : Interface}

theorem acceptCommand_none (he : q.eIn = []) (hh : q.hIn = []) : acceptCommand q = none := by
  simp [acceptCommand, he, hh]

theorem acceptCommand_edge {w : Word} {rest : List Word} (he : q.eIn = w :: rest) (hh : q.hIn = []) :
    acceptCommand q = some (takeEdge q w rest) := by
  simp [acceptCommand, he, hh]

theorem acceptCommand_host {w : Word} {rest : List Word} (hh : q.hIn = w :: rest) (he : q.eIn = []) :
    acceptCommand q = some (takeHost q w rest) := by
  simp [acceptCommand, he, hh]

/-- R79: the free value decides. -/
theorem acceptCommand_both {ew hw : Word} {es hs : List Word} (he : q.eIn = ew :: es) (hh : q.hIn = hw :: hs) :
    acceptCommand q = some (takeEdge q ew es) ∨ acceptCommand q = some (takeHost q hw hs) := by
  cases hfirst : Config.edgeFirst q.turn
  · exact .inr (by simp [acceptCommand, he, hh, hfirst])
  · exact .inl (by simp [acceptCommand, he, hh, hfirst])

theorem acceptInput_of_no_reset (h : q.rstIn = 0) : acceptInput q = acceptCommand q := by
  simp [acceptInput, h]

theorem acceptInput_of_reset_alone {n : Nat} (h : q.rstIn = n + 1) (hnone : acceptCommand q = none) :
    acceptInput q = some (takeReset q n) := by
  simp [acceptInput, h, hnone]

/-- R280: the free value decides. -/
theorem acceptInput_of_reset {n : Nat} (h : q.rstIn = n + 1) :
    acceptInput q = some (takeReset q n) ∨ acceptInput q = acceptCommand q := by
  rcases acceptInput_cases q with hcommand | ⟨rest, hrest, hreset⟩
  · exact .inr hcommand
  · obtain rfl : rest = n := by omega
    exact .inl hreset

end

/-! ## A step of a legal configuration. -/

section
variable {s : State} (hc : configLegal s.cfg = true)
include hc

theorem step_of_accept {input : Input} {q : Interface} (h : acceptInput s.io = some (input, q)) :
    step s = perform input (s.setIo q) := by
  simp [step, hc, h]

theorem step_of_none (h : acceptInput s.io = none) : step s = .next s := by
  simp [step, hc, h]

theorem step_of_takeReset {n : Nat} (h : acceptInput s.io = some (takeReset s.io n)) :
    step s = perform .rst { s with io := { s.io with rstIn := n, turn := s.io.turn + 1 } } :=
  step_of_accept hc h

theorem step_of_takeEdge {w : Word} {rest : List Word} (h : acceptInput s.io = some (takeEdge s.io w rest)) :
    step s = exec (decode s.cfg .edge w) { s with io := { s.io with eIn := rest, turn := s.io.turn + 1 } } :=
  step_of_accept hc h

theorem step_of_takeHost {w : Word} {rest : List Word} (h : acceptInput s.io = some (takeHost s.io w rest)) :
    step s = exec (decode s.cfg .host w) { s with io := { s.io with hIn := rest, turn := s.io.turn + 1 } } :=
  step_of_accept hc h

/-- R73: a word on the E port alone. -/
theorem step_of_edge_alone {w : Word} {rest : List Word} (hr : s.io.rstIn = 0) (he : s.io.eIn = w :: rest)
    (hh : s.io.hIn = []) :
    step s = exec (decode s.cfg .edge w) { s with io := { s.io with eIn := rest, turn := s.io.turn + 1 } } :=
  step_of_takeEdge hc ((acceptInput_of_no_reset hr).trans (acceptCommand_edge he hh))

end

/-- Settles O8: with no reset event, the input is the word of the one port that presents one, or none. -/
theorem stepPerformsTheDecodedOperation : Obligations.StepPerformsTheDecodedOperation := by
  intro s hc hr
  have haccept := acceptInput_of_no_reset hr
  refine ⟨fun w rest he hh => step_of_edge_alone hc hr he hh, fun w rest hh he => ?_, fun he hh => ?_⟩
  · exact step_of_takeHost hc (haccept.trans (acceptCommand_host hh he))
  · exact step_of_none hc (haccept.trans (acceptCommand_none he hh))

/-- Settles O9: whichever port the free value names. -/
theorem simultaneousWordsAreTakenInEitherOrder : Obligations.SimultaneousWordsAreTakenInEitherOrder := by
  intro s ew hw es hs hc hr he hh
  have haccept := acceptInput_of_no_reset hr
  exact (acceptCommand_both he hh).imp (fun h => step_of_takeEdge hc (haccept.trans h))
    (fun h => step_of_takeHost hc (haccept.trans h))

/-- Settles O12: the reset event is taken, or else the operation that is accepted without it. -/
theorem resetIsWhollyBeforeOrAfterAnOperation : Obligations.ResetIsWhollyBeforeOrAfterAnOperation := by
  intro s n hc hr
  have hreset (h : acceptInput s.io = some (takeReset s.io n)) := step_of_takeReset hc h
  refine ⟨fun he hh => ?_, fun w rest he hh => ?_, fun w rest hh he => ?_, fun ew erest hw hrest he hh => ?_⟩
  · exact hreset (acceptInput_of_reset_alone hr (acceptCommand_none he hh))
  · exact (acceptInput_of_reset hr).imp hreset
      fun h => step_of_takeEdge hc (h.trans (acceptCommand_edge he hh))
  · exact (acceptInput_of_reset hr).imp hreset
      fun h => step_of_takeHost hc (h.trans (acceptCommand_host hh he))
  · exact (acceptInput_of_reset hr).imp hreset fun h => (acceptCommand_both he hh).imp
      (fun hedge => step_of_takeEdge hc (h.trans hedge)) (fun hhost => step_of_takeHost hc (h.trans hhost))

/-! ## Refusals. -/

theorem exec_next (i : Instr) (s : State) : ∃ u, exec i s = .next u := by
  obtain ⟨u, p, r, hnext, -⟩ := exec_answers i s
  exact ⟨u.answer p r, hnext⟩

theorem perform_next (input : Input) (s : State) : ∃ u, perform input s = .next u := by
  cases input with
  | rst => exact ⟨_, perform_rst s⟩
  | command p w => exact exec_next (decode s.cfg p w) s

theorem step_next_of_legal {s : State} (hc : configLegal s.cfg = true) : ∃ u, step s = .next u := by
  cases haccept : acceptInput s.io with
  | none => exact ⟨s, step_of_none hc haccept⟩
  | some accepted =>
    rw [step_of_accept hc haccept]
    exact perform_next ..

/-- Settles O13. -/
theorem noOperationStopsTheBlock : Obligations.NoOperationStopsTheBlock := ⟨exec_next, fun _ => step_next_of_legal⟩

theorem step_of_illegal {s : State} (hc : configLegal s.cfg = false) : step s = .refused .illegalConfiguration := by
  simp [step, hc]

theorem step_refused_iff (s : State) : step s = .refused .illegalConfiguration ↔ configLegal s.cfg = false := by
  refine ⟨fun hrefused => ?_, step_of_illegal⟩
  by_contra hc
  obtain ⟨u, hu⟩ := step_next_of_legal ((Bool.not_eq_false _).mp hc)
  simp [hu] at hrefused

/-- R7 (a) to (d) and the width, without Bools. -/
theorem configLegal_iff (c : Config) : configLegal c = true ↔
    0 < c.tolNum ∧ 3 * c.tolNum ≤ c.tolDen ∧ (c.tolDen + c.tolNum) * tLeadMark c ≤ c.tolDen * tFrame c ∧
      tFrame c < 2 ^ (c.tsW - 1) ∧ c.tRelease < 2 ^ (c.tsW - 1) ∧
      (c.tolDen + c.tolNum) * tLeadMark c < 2 ^ c.tsW * c.tolDen ∧ 0 < c.tsW ∧ c.tsW ≤ 32 := by
  simp only [configLegal, toleranceLegal, timeoutLegal, rangeLegal, windowLegal, widthLegal, Bool.and_eq_true,
    decide_eq_true_eq, and_assoc]

/-- Settles O14: `step` refuses what `configLegal` refuses. -/
theorem illegalConfigurationsAreRefused : Obligations.IllegalConfigurationsAreRefused := by
  intro s
  rw [step_refused_iff, ← Bool.not_eq_true, configLegal_iff]
  rfl

/-! ## What every step keeps. -/

/-- Everything a step that answers a next state can have done. -/
theorem step_cases {s u : State} (h : step s = .next u) :
    u = s ∨ (∃ q, u = resetEvent (s.setIo q)) ∨
      ∃ p w q, exec (decode s.cfg p w) (s.setIo q) = .next u := by
  have hc : configLegal s.cfg = true := by
    by_contra hc
    simp [step_of_illegal (Bool.not_eq_true _ |>.mp hc)] at h
  cases haccept : acceptInput s.io with
  | none =>
    rw [step_of_none hc haccept, Host.Outcome.next.injEq] at h
    exact .inl h.symm
  | some accepted =>
    obtain ⟨input, q⟩ := accepted
    rw [step_of_accept hc haccept] at h
    cases input with
    | rst =>
      rw [perform_rst, Host.Outcome.next.injEq] at h
      exact .inr (.inl ⟨q, h.symm⟩)
    | command p w => exact .inr (.inr ⟨p, w, q, h⟩)

/-- Every operation is illegal, `EDGE`, or one of the H port's. -/
theorem instr_cases (i : Instr) : (∃ p, i = .illegal p) ∨ (∃ m t, i = .edge m t) ∨ isHostOp i = true := by
  cases i <;> simp [isHostOp]

/-- Everything an operation that answers a next state can have done, by the kind of operation. -/
theorem exec_cases {i : Instr} {s u : State} (h : exec i s = .next u) :
    (∃ p, i = .illegal p ∧ u = s.answer p illegalReply) ∨
    (∃ m t, i = .edge m t ∧
      u = ((s.setDec (edgeTransition s.cfg m t s.dec s.lf).dec).setLf (edgeTransition s.cfg m t s.dec s.lf).lf).answer
        .edge (edgeTransition s.cfg m t s.dec s.lf).result.reply) ∨
    (isHostOp i = true ∧ u = ((s.setLf (frameAfter s.lf i)).setBt (sessionAfter s.cfg s.lf s.bt i)).answer .host
      (hostReply s.cfg s.lf s.bt i)) := by
  rcases instr_cases i with ⟨p, rfl⟩ | ⟨m, t, rfl⟩ | hi
  · rw [exec_illegal, Host.Outcome.next.injEq] at h
    exact .inl ⟨p, rfl, h.symm⟩
  · have hedge := (execEdge_next m t s).symm.trans h
    rw [Host.Outcome.next.injEq] at hedge
    exact .inr (.inl ⟨m, t, rfl, hedge.symm⟩)
  · rw [exec_hostOp_eq i s hi, Host.Outcome.next.injEq] at h
    exact .inr (.inr ⟨hi, h.symm⟩)

theorem exec_cfg {i : Instr} {s u : State} (h : exec i s = .next u) : u.cfg = s.cfg := by
  rcases exec_cases h with ⟨p, -, rfl⟩ | ⟨m, t, -, rfl⟩ | ⟨-, rfl⟩ <;> rfl

theorem step_cfg {s u : State} (h : step s = .next u) : u.cfg = s.cfg := by
  rcases step_cases h with rfl | ⟨q, rfl⟩ | ⟨p, w, q, hexec⟩
  · rfl
  · rfl
  · exact (exec_cfg hexec).trans (s.setIo_cfg q)

/-- Settles O15. -/
theorem configurationNeverChanges : Obligations.ConfigurationNeverChanges :=
  ⟨fun _ _ _ => exec_cfg, fun _ _ => step_cfg⟩

/-- The session after an operation, whatever its port. -/
theorem exec_bt {i : Instr} {s u : State} (h : exec i s = .next u) : u.bt = sessionAfter s.cfg s.lf s.bt i := by
  rcases exec_cases h with ⟨p, rfl, rfl⟩ | ⟨m, t, rfl, rfl⟩ | ⟨-, rfl⟩ <;> rfl

end Sys2Proof.Machine
end

section
/-!
PROOFS. The integer operations and the buffer (20_memory R60 to R67): subtraction modulo `2^TS_W`, one bit of the buffer, its
bytes, and the saturating increment; the statements O18 to O20 assembled from them.
-/

namespace Sys2Proof.Machine

/-! ## Timestamps. -/

theorem timeFits_iff (c : Config) (t : Ts) : timeFits c t = true ↔ t.toNat < 2 ^ c.tsW := decide_eq_true_iff

theorem advance_fits (c : Config) (t d : Ts) : timeFits c (advance c t d) = true := truncTs_fits c _

section
variable {c : Config} (hc : c.tsW ≤ 32)
include hc

theorem two_pow_tsW_dvd : 2 ^ c.tsW ∣ 2 ^ 32 := Nat.pow_dvd_pow 2 hc

/-- R62: the difference of 32-bit values, taken modulo `2^TS_W`. -/
theorem subTs_toNat (a : Ts) {b : Ts} (hb : timeFits c b = true) :
    (subTs c a b).toNat = (2 ^ c.tsW + a.toNat - b.toNat) % 2 ^ c.tsW := by
  have hlt := (timeFits_iff c b).mp hb
  obtain ⟨k, hk⟩ := two_pow_tsW_dvd hc
  have hkpos : 0 < k := Nat.pos_of_ne_zero (by rintro rfl; simp at hk)
  have hsplit : 2 ^ c.tsW * k = 2 ^ c.tsW * (k - 1) + 2 ^ c.tsW := by
    rw [← Nat.mul_succ, Nat.succ_eq_add_one, Nat.sub_add_cancel hkpos]
  calc (subTs c a b).toNat = (2 ^ 32 - b.toNat + a.toNat) % 2 ^ c.tsW := by
        rw [subTs, truncTs_toNat c hc, BitVec.toNat_sub, Nat.mod_mod_of_dvd _ (two_pow_tsW_dvd hc)]
    _ = (2 ^ c.tsW + a.toNat - b.toNat + 2 ^ c.tsW * (k - 1)) % 2 ^ c.tsW := by
        congr 1
        omega
    _ = (2 ^ c.tsW + a.toNat - b.toNat) % 2 ^ c.tsW := Nat.add_mul_mod_self_left ..

theorem setWidth_truncTs (x : Ts) : (truncTs c x).setWidth c.tsW = x.setWidth c.tsW := by
  rw [truncTs, BitVec.setWidth_setWidth_of_le _ hc, BitVec.setWidth_eq]

theorem truncTs_sub (x y : Ts) : truncTs c (x - y) = (x.setWidth c.tsW - y.setWidth c.tsW).setWidth 32 := by
  rw [truncTs, BitVec.sub_eq_add_neg, BitVec.setWidth_add _ _ hc, BitVec.setWidth_neg_of_le hc, BitVec.sub_eq_add_neg]

theorem truncTs_truncTs_sub (x y : Ts) : truncTs c (truncTs c x - y) = truncTs c (x - y) := by
  rw [truncTs_sub hc, truncTs_sub hc, setWidth_truncTs hc]

theorem truncTs_sub_truncTs (x y : Ts) : truncTs c (x - truncTs c y) = truncTs c (x - y) := by
  rw [truncTs_sub hc, truncTs_sub hc, setWidth_truncTs hc]

/-- A duration is recovered from the times of its two edges, across a wrap too. -/
theorem subTs_advance {d : Ts} (t : Ts) (hd : timeFits c d = true) : subTs c (advance c t d) t = d := by
  rw [subTs, advance, truncTs_truncTs_sub hc, BitVec.add_comm, BitVec.add_sub_cancel, truncTs_of_fits c hd]

/-- Seen from before, a later time lies almost a whole range away. -/
theorem subTs_before (a : Ts) {d : Ts} (hpos : 0 < d.toNat) (hd : timeFits c d = true) :
    (subTs c a (advance c a d)).toNat = 2 ^ c.tsW - d.toNat := by
  have hneg : a - (a + d) = 0#32 - d := by bv_omega
  calc (subTs c a (advance c a d)).toNat = (subTs c 0#32 d).toNat := by
        rw [subTs, advance, truncTs_sub_truncTs hc, hneg, ← subTs]
    _ = (2 ^ c.tsW + 0 - d.toNat) % 2 ^ c.tsW := subTs_toNat hc 0#32 hd
    _ = 2 ^ c.tsW - d.toNat := Nat.mod_eq_of_lt (Nat.sub_lt (by positivity) hpos)

end

/-- Settles O18. -/
theorem timestampDifferenceIsModular : Obligations.TimestampDifferenceIsModular := by
  refine ⟨fun c hc a b ha hb => ⟨subTs_toNat hc a hb, subTs_advance hc b ha⟩, fun c hc a d ha hpos hd => ?_⟩
  obtain ⟨hwpos, hw⟩ := configLegal_width hc
  obtain ⟨hframe, -⟩ := configLegal_range hc
  have hhalf : 2 ^ c.tsW = 2 ^ (c.tsW - 1) + 2 ^ (c.tsW - 1) := by
    rw [← Nat.two_mul, ← Nat.pow_succ', Nat.succ_eq_add_one, Nat.sub_add_cancel hwpos]
  rw [subTs_before hw a hpos ((timeFits_iff c d).mpr (by omega))]
  omega

/-! ## The buffer. -/

theorem bufByte_getLsbD (buf : BitVec 32) (i : Nat) {j : Nat} (hj : j < 8) :
    (bufByte buf i).getLsbD j = buf.getLsbD (24 - 8 * i + j) := by
  simp [bufByte, hj]

/-- R67: writing the bit that `bitMask` selects is the or with the shifted bit, where that bit is 0. -/
theorem bufSetBit_eq_or (buf : BitVec 32) (k : BitVec 5) (b : Bool) (h : buf.getLsbD (31 - k.toNat) = false) :
    bufSetBit buf k b = buf ||| ((BitVec.ofBool b).setWidth 32 <<< (31 - k.toNat)) := by
  cases b with
  | true => rfl
  | false =>
    have hzero : (BitVec.ofBool false).setWidth 32 <<< (31 - k.toNat) = 0#32 := by simp
    rw [hzero, BitVec.or_zero]
    apply BitVec.eq_of_getLsbD_eq
    intro i _
    rw [bufSetBit_getLsbD]
    split
    next hi => rw [hi, h]
    next => rfl

/-- Settles O19: bit `31 - k` is bit `7 - k mod 8` of byte `k div 8`. -/
theorem bufferBitsAndBytes : Obligations.BufferBitsAndBytes := by
  refine ⟨bufSetBit_getLsbD, fun buf i j _ hj => bufByte_getLsbD buf i hj, fun buf k b => ?_, bufSetBit_eq_or⟩
  have hposition : 24 - 8 * (k.toNat / 8) + (7 - k.toNat % 8) = 31 - k.toNat := by omega
  rw [bufByte_getLsbD _ _ (by omega), hposition, bufSetBit_getLsbD, if_pos rfl]

/-! ## The bytes of a frame. -/

section
variable (a x y z : Byte)

theorem bufByte_append_zero : bufByte (a ++ x ++ y ++ z) 0 = a := by
  rw [bufByte, extract_append_high _ _ (by omega), extract_append_high _ _ (by omega), extract_append_high _ _ (by omega)]
  exact extract_all a

theorem bufByte_append_one : bufByte (a ++ x ++ y ++ z) 1 = x := by
  rw [bufByte, extract_append_high _ _ (by omega), extract_append_high _ _ (by omega), extract_append_low _ _ (by omega)]
  exact extract_all x

theorem bufByte_append_two : bufByte (a ++ x ++ y ++ z) 2 = y := by
  rw [bufByte, extract_append_high _ _ (by omega), extract_append_low _ _ (by omega)]
  exact extract_all y

theorem bufByte_append_three : bufByte (a ++ x ++ y ++ z) 3 = z := by
  rw [bufByte, extract_append_low _ _ (by omega)]
  exact extract_all z

/-- R61: the address is sent low byte first. -/
theorem bufAddress_append : bufAddress (a ++ x ++ y ++ z) = x ++ a := by
  rw [bufAddress, bufByte_append_zero, bufByte_append_one]

theorem bufCommand_append : bufCommand (a ++ x ++ y ++ z) = y := bufByte_append_two a x y z

/-- R65: the fourth byte is the complement of the third. -/
theorem complementGood_append_iff : complementGood (a ++ x ++ y ++ z) = true ↔ z = ~~~ y := by
  rw [complementGood_iff, bufByte_append_two, bufByte_append_three]
  constructor
  · intro h
    rw [← BitVec.xor_allOnes, ← BitVec.xor_left_inj y, BitVec.xor_comm z, h]
    simp
  · rintro rfl
    rw [← BitVec.xor_allOnes, ← BitVec.xor_assoc, BitVec.xor_self, BitVec.zero_xor]
    rfl

end

/-- Settles O20. -/
theorem frameAssemblyAndSaturation : Obligations.FrameAssemblyAndSaturation :=
  ⟨fun a x y z => ⟨bufAddress_append a x y z, bufCommand_append a x y z, complementGood_append_iff a x y z⟩, satInc_toNat⟩

end Sys2Proof.Machine
end

section
/-!
PROOFS. The classes (40_pulse_classifier R133, R135): the windows of multipliers a factor 2 apart are disjoint, and no
window reaches beyond that of the lead mark; the statement O17 assembled from them.
-/

namespace Sys2Proof.Machine

section
variable {c : Config} {d : Ts} {m n : Nat}

/-- The upper end of a window is not above that of the lead mark. -/
theorem tolDen_mul_lt_of_inWindow (hm : m ≤ c.mLeadMark) (hw : inWindow c d m = true) :
    c.tolDen * d.toNat < (c.tolDen + c.tolNum) * tLeadMark c :=
  ((inWindow_iff ..).mp hw).2.trans_le (Nat.mul_le_mul_left _ (Nat.mul_le_mul_right _ hm))

variable (hc : configLegal c = true)
include hc

/-- R7 (a): a tolerance of at most one third keeps apart the windows of multipliers of which one is at least the double
of the other. -/
theorem inWindow_disjoint (hmn : 2 * m ≤ n) (hm : inWindow c d m = true) : inWindow c d n = false := by
  obtain ⟨-, htol⟩ := configLegal_tolerance hc
  rw [Bool.eq_false_iff, ne_eq, inWindow_iff]
  rintro ⟨hlower, -⟩
  obtain ⟨-, hupper⟩ := (inWindow_iff ..).mp hm
  have hbands : (c.tolDen + c.tolNum) * nominal c m ≤ (c.tolDen - c.tolNum) * nominal c n :=
    calc (c.tolDen + c.tolNum) * nominal c m ≤ (2 * (c.tolDen - c.tolNum)) * nominal c m :=
          Nat.mul_le_mul_right _ (by omega)
      _ = (c.tolDen - c.tolNum) * nominal c (2 * m) := by simp only [nominal]; ring
      _ ≤ (c.tolDen - c.tolNum) * nominal c n := Nat.mul_le_mul_left _ (Nat.mul_le_mul_right _ hmn)
  omega

/-- R7 (b). -/
theorem toNat_le_tFrame_of_inWindow (hm : m ≤ c.mLeadMark) (hw : inWindow c d m = true) : d.toNat ≤ tFrame c :=
  (Nat.lt_of_mul_lt_mul_left ((tolDen_mul_lt_of_inWindow hm hw).trans_le (configLegal_timeout hc))).le

/-- R7 (d). -/
theorem timeFits_of_inWindow (hm : m ≤ c.mLeadMark) (hw : inWindow c d m = true) : timeFits c d = true := by
  have hlt := (tolDen_mul_lt_of_inWindow hm hw).trans (configLegal_window hc)
  rw [Nat.mul_comm (2 ^ c.tsW)] at hlt
  exact (timeFits_iff c d).mpr (Nat.lt_of_mul_lt_mul_left hlt)

end

/-! ## The classes by their windows. -/

section
variable {c : Config} {mark space : Ts}

theorem classifyBit_zero_iff :
    classifyBit c mark space = .zero ↔ inWindow c mark c.mBitMark = true ∧ inWindow c space c.mZeroSpace = true := by
  unfold classifyBit
  split
  next hm => cases inWindow c space c.mZeroSpace <;> cases inWindow c space c.mOneSpace <;> simp [hm]
  next hm => simp [hm]

/-- Which of the two tests comes first cannot matter to a space that passes at most one. -/
theorem classifyBit_one_iff (hdisjoint : inWindow c space c.mZeroSpace = true → inWindow c space c.mOneSpace = false) :
    classifyBit c mark space = .one ↔ inWindow c mark c.mBitMark = true ∧ inWindow c space c.mOneSpace = true := by
  unfold classifyBit
  split
  next hm =>
    split
    next hz => simp [hdisjoint hz]
    next hz => cases inWindow c space c.mOneSpace <;> simp [hm]
  next hm => simp [hm]

theorem classifyBit_invalid_iff :
    classifyBit c mark space = .invalid ↔ inWindow c mark c.mBitMark = false ∨
      (inWindow c space c.mZeroSpace = false ∧ inWindow c space c.mOneSpace = false) := by
  unfold classifyBit
  split
  next hm => cases inWindow c space c.mZeroSpace <;> cases inWindow c space c.mOneSpace <;> simp [hm]
  next hm => simp [hm]

theorem classifyLeadSpace_dataLead_iff :
    classifyLeadSpace c space = .dataLead ↔ inWindow c space c.mLeadSpace = true := by
  unfold classifyLeadSpace
  split
  next hl => simp [hl]
  next hl => cases inWindow c space c.mHoldSpace <;> simp [hl]

theorem classifyLeadSpace_holding_iff
    (hdisjoint : inWindow c space c.mHoldSpace = true → inWindow c space c.mLeadSpace = false) :
    classifyLeadSpace c space = .holding ↔ inWindow c space c.mHoldSpace = true := by
  unfold classifyLeadSpace
  cases hh : inWindow c space c.mHoldSpace
  case true => simp [hdisjoint hh]
  case false => cases inWindow c space c.mLeadSpace <;> simp

theorem classifyLeadSpace_neither_iff :
    classifyLeadSpace c space = .neither ↔
      inWindow c space c.mLeadSpace = false ∧ inWindow c space c.mHoldSpace = false := by
  unfold classifyLeadSpace
  split
  next hl => simp [hl]
  next hl => cases inWindow c space c.mHoldSpace <;> simp [hl]

end

/-- With the NEC multipliers no window lies above that of the lead mark. -/
theorem le_mLeadMark_of_nec {c : Config} (hn : necMultipliers c) {m : Nat}
    (hm : m ∈ [c.mLeadMark, c.mLeadSpace, c.mHoldSpace, c.mBitMark, c.mZeroSpace, c.mOneSpace]) : m ≤ c.mLeadMark := by
  obtain ⟨h1, h2, h3, h4, h5, h6⟩ := hn
  simp only [h1, h2, h3, h4, h5, h6, List.mem_cons, List.not_mem_nil, or_false] at hm ⊢
  omega

section
variable {c : Config} (hc : configLegal c = true) (hn : necMultipliers c) {d : Ts}
include hc hn

theorem not_oneSpace_of_zeroSpace (h : inWindow c d c.mZeroSpace = true) : inWindow c d c.mOneSpace = false :=
  inWindow_disjoint hc (by obtain ⟨-, -, -, -, hz, ho⟩ := hn; omega) h

theorem not_leadSpace_of_holdSpace (h : inWindow c d c.mHoldSpace = true) : inWindow c d c.mLeadSpace = false :=
  inWindow_disjoint hc (by obtain ⟨-, hl, hh, -⟩ := hn; omega) h

theorem not_leadMark_of_bitMark (h : inWindow c d c.mBitMark = true) : inWindow c d c.mLeadMark = false :=
  inWindow_disjoint hc (by obtain ⟨hl, -, -, hb, -⟩ := hn; omega) h

end

/-- Settles O17: a class is named by the first window that matches, and the windows tested at one point are disjoint. -/
theorem classesAreNamedByTheirWindows : Obligations.ClassesAreNamedByTheirWindows := by
  intro c hc hn
  refine ⟨fun m s => ⟨?_, ?_, ?_⟩, fun s => ⟨?_, ?_, ?_⟩, fun d m hm hw => ?_⟩
  · exact classifyBit_zero_iff
  · exact classifyBit_one_iff (not_oneSpace_of_zeroSpace hc hn)
  · exact classifyBit_invalid_iff
  · exact classifyLeadSpace_dataLead_iff
  · exact classifyLeadSpace_holding_iff (not_leadSpace_of_holdSpace hc hn)
  · exact classifyLeadSpace_neither_iff
  · exact toNat_le_tFrame_of_inWindow hc (le_mLeadMark_of_nec hn hm) hw

end Sys2Proof.Machine
end

section
/-!
PROOFS. The button tracker over every operation (43_button_tracker R223, R224; 10_state R38, R39): everything a frame and an
operation can do to the session, each with its condition; the statements O47 to O49 assembled from it.
-/

namespace Sys2Proof.Machine

/-! ## Everything a frame can do. -/

/-- What a frame with the time `t` can make of a session, as the cases R202 to R211. `starts` says whether it starts a
press. -/
inductive FrameMove (b : ButtonSession) (t : Ts) (starts : Bool) : ButtonSession → Prop where
  | ignored (hs : starts = false) : FrameMove b t starts b
  | held (hs : starts = false) (ha : active b = true) :
      FrameMove b t starts { b with holdCount := satInc b.holdCount, lastEventTime := t }
  | refreshed (hs : starts = false) (ha : active b = true) : FrameMove b t starts { b with lastEventTime := t }
  | pressed (x : Byte) (hs : starts = true) (h : b.pressCount = 0 ∨ (b.timeoutType = .timeout ∧ b.relFlag = false)) :
      FrameMove b t starts (startPress b x t .noTimeout)
  | pressedAgain (hs : starts = true) (ht : b.timeoutType = .timeout) (hr : b.relFlag = true) :
      FrameMove b t starts (pressAgain b t)
  | pressedOther (x : Byte) (hs : starts = true) (ht : b.timeoutType = .timeout) (hr : b.relFlag = true)
      (hx : x ≠ b.lastCommand) : FrameMove b t starts (startPress b x t .newButton)
  | replaced (x : Byte) (hs : starts = true) (ha : active b = true) (hx : x ≠ b.lastCommand) :
      FrameMove b t starts (raiseFlags (startPress b x t .newButton))

theorem startsPress_eq (c : Config) (b : ButtonSession) (k : KindField) (a : Addr) (x : Byte) :
    startsPress c b k a x =
      ((k == .dataFrame) && !filteredOut c a && (fresh b || timedOut b || x != b.lastCommand)) := rfl

theorem trackData_moves (b : ButtonSession) (x : Byte) (t : Ts) :
    FrameMove b t (fresh b || timedOut b || x != b.lastCommand) (trackData b x t) := by
  rcases trackData_cases b x t with ⟨h, heq⟩ | ⟨-, ht, hr, -, heq⟩ | ⟨-, ht, hr, hx, heq⟩ | ⟨hf, ht, hx, heq⟩ |
    ⟨hf, ht, hx, heq⟩ <;> rw [heq]
  · have hstarts : (fresh b || timedOut b) = true := by rcases h with hf | ⟨ht, -⟩ <;> simp [*]
    exact .pressed x (by simp [hstarts]) (by rwa [fresh_iff, timedOut_iff] at h)
  · exact .pressedAgain (by simp [ht]) ((timedOut_iff b).mp ht) hr
  · exact .pressedOther x (by simp [ht]) ((timedOut_iff b).mp ht) hr hx
  · exact .refreshed (by simp [hf, ht, hx]) (by simp [active, hf, ht])
  · exact .replaced x (by simp [hx]) (by simp [active, hf, ht]) hx

theorem trackFrame_moves (c : Config) (b : ButtonSession) (k : KindField) (a : Addr) (x : Byte) (t : Ts) :
    FrameMove b t (startsPress c b k a x) (trackFrame c b k a x t) := by
  rw [startsPress_eq]
  rcases trackFrame_cases c b k a x t with ⟨rfl, hpass, heq⟩ | ⟨rfl, heq⟩ | ⟨heq, hdata, -⟩ <;> rw [heq]
  · simpa [hpass] using trackData_moves b x t
  · rcases trackRepeat_cases b t with ⟨ha, heq⟩ | ⟨-, heq⟩ <;> rw [heq]
    · exact .held rfl ha
    · exact .ignored rfl
  · refine .ignored ?_
    by_cases hk : k = .dataFrame
    · simp [hdata hk]
    · simp [hk]

/-! ## Everything an operation can do. -/

/-- Where the time of a frame comes from: the operand of `BT_FRAME`, or the claimed frame of `BT_POLL`. -/
def isEventTime (s : State) (i : Instr) (t : Ts) : Prop := timeOperand i = some t ∨ t = s.lf.time

/-- What an operation can make of the session. -/
inductive SessionMove (s : State) : Instr → ButtonSession → Prop where
  | kept (i : Instr) (hs : opStartsPress s i = false) : SessionMove s i s.bt
  | frame (i : Instr) (t : Ts) (b : ButtonSession) (ht : isEventTime s i t)
      (hm : FrameMove s.bt t (opStartsPress s i) b) : SessionMove s i b
  | released (i : Instr) (hs : opStartsPress s i = false) (ha : active s.bt = true) :
      SessionMove s i (raiseFlags { s.bt with timeoutType := .timeout })
  | toFlagRead : SessionMove s .btPressTo (clearToFlag s.bt)
  | relFlagRead : SessionMove s .btRelease (clearRelFlag s.bt)
  | reset : SessionMove s .btReset .reset

theorem checkTimeout_moves {s : State} {i : Instr} (now : Ts) (hs : opStartsPress s i = false) :
    SessionMove s i (checkTimeout s.cfg s.bt now) := by
  rcases checkTimeout_cases s.cfg s.bt now with ⟨ha, -, heq⟩ | ⟨-, heq⟩ <;> rw [heq]
  · exact .released i hs ha
  · exact .kept i hs

theorem sessionAfter_moves (s : State) (i : Instr) : SessionMove s i (sessionAfter s.cfg s.lf s.bt i) := by
  cases i with
  | btFrame k a x t => exact .frame _ t _ (.inl rfl) (trackFrame_moves s.cfg s.bt k a x t)
  | btChkTo now => exact checkTimeout_moves now rfl
  | btPoll now =>
    cases hp : s.lf.pending
    case true =>
      have hstarts : opStartsPress s (.btPoll now) = startsPress s.cfg s.bt s.lf.kind.field s.lf.address s.lf.command := by
        simp [opStartsPress, hp]
      have hmove := trackFrame_moves s.cfg s.bt s.lf.kind.field s.lf.address s.lf.command s.lf.time
      rw [← hstarts] at hmove
      simpa [sessionAfter, hp] using SessionMove.frame _ s.lf.time _ (.inr rfl) hmove
    case false => simpa [sessionAfter, hp] using checkTimeout_moves (i := .btPoll now) now (by simp [opStartsPress, hp])
  | btPressTo => exact .toFlagRead
  | btRelease => exact .relFlagRead
  | btReset => exact .reset
  | _ => exact .kept _ rfl

theorem exec_session_moves {i : Instr} {s u : State} (h : exec i s = .next u) : SessionMove s i u.bt := by
  rw [exec_bt h]
  exact sessionAfter_moves s i

/-! ## The counters. -/

/-- R223 for a frame. -/
theorem FrameMove.counters {b b' : ButtonSession} {t : Ts} {starts : Bool} (h : FrameMove b t starts b') :
    (starts = false →
      b.holdCount ≤ b'.holdCount ∧ b'.pressCount = b.pressCount ∧ b'.lastCommand = b.lastCommand) ∧
    (starts = true → b'.holdCount = 0 ∧
      (b'.pressCount = 1 ∨ (b'.timeoutType = .nextButton ∧ b'.pressCount = satInc b.pressCount))) := by
  cases h with
  | ignored hs | refreshed hs => simp [hs]
  | held hs => simp [hs, le_satInc]
  | pressed _ hs | pressedAgain hs | pressedOther _ hs | replaced _ hs => simp [hs]

/-- Settles O47: of the moves of a session only those of a frame and `BT_RESET` touch the counters. -/
theorem countersAreMonotonicWithinAPress : Obligations.CountersAreMonotonicWithinAPress := by
  intro i s u h
  have hmove := exec_session_moves h
  generalize u.bt = b at hmove ⊢
  cases hmove with
  | kept _ hs | released _ hs => simp [hs]
  | frame _ t _ _ hm => exact ⟨fun _ => hm.counters.1, hm.counters.2⟩
  | toFlagRead | relFlagRead => simp [opStartsPress]
  | reset => simp [opStartsPress]

/-! ## The timeout type. -/

/-- R224 for a frame: only one that starts a press changes `timeout_type`. -/
theorem FrameMove.timeoutType_change {b b' : ButtonSession} {t : Ts} {starts : Bool} (hinv : trackerInv b)
    (h : FrameMove b t starts b') (hne : b'.timeoutType ≠ b.timeoutType) :
    starts = true ∧
    ((b.timeoutType ≠ .timeout ∧ b.pressCount ≠ 0 ∧ b'.lastCommand ≠ b.lastCommand ∧ b'.timeoutType = .newButton) ∨
    (b.timeoutType = .timeout ∧ b.relFlag = false ∧ b'.timeoutType = .noTimeout) ∨
    (b.timeoutType = .timeout ∧ b.relFlag = true ∧ b'.lastCommand = b.lastCommand ∧ b'.timeoutType = .nextButton) ∨
    (b.timeoutType = .timeout ∧ b.relFlag = true ∧ b'.lastCommand ≠ b.lastCommand ∧ b'.timeoutType = .newButton)) := by
  cases h with
  | ignored | held | refreshed => exact absurd rfl hne
  | pressed x hs hnew =>
    rcases hnew with hfresh | ⟨ht, hr⟩
    · obtain ⟨-, -, hnone, -⟩ := hinv.1 hfresh
      exact absurd hnone.symm hne
    · simp [hs, ht, hr]
  | pressedAgain hs ht hr => simp [hs, ht, hr]
  | pressedOther x hs ht hr hx => simp [hs, ht, hr, hx]
  | replaced x hs ha hx =>
    obtain ⟨hp, ht⟩ := (active_iff b).mp ha
    exact ⟨hs, .inl ⟨ht, hp, hx, rfl⟩⟩

/-- Settles O48: besides the frames, a release and `BT_RESET`. -/
theorem timeoutTypeLifeCycle : Obligations.TimeoutTypeLifeCycle := by
  intro i s u hinv h
  have hmove := exec_session_moves h
  generalize u.bt = b at hmove ⊢
  intro hne
  cases hmove with
  | kept | toFlagRead | relFlagRead => exact absurd rfl hne
  | frame _ t _ _ hm =>
    obtain ⟨hs, hchange⟩ := hm.timeoutType_change hinv hne
    refine .inr (.inr ?_)
    simpa [hs] using hchange
  | released _ hs ha =>
    obtain ⟨hp, ht⟩ := (active_iff s.bt).mp ha
    exact .inr (.inl ⟨hs, ht, hp, rfl, rfl, rfl⟩)
  | reset => exact .inl ⟨rfl, rfl⟩

/-! ## The one-shot flags. -/

/-- R38, R39 for a frame: it keeps both flags, or raises both and ends an active press. -/
theorem FrameMove.flags {b b' : ButtonSession} {t : Ts} {starts : Bool} (h : FrameMove b t starts b') :
    (b'.relFlag = b.relFlag ∧ b'.toFlag = b.toFlag) ∨
    (active b = true ∧ b'.relFlag = true ∧ b'.toFlag = true ∧ b'.timeoutType = .newButton) := by
  cases h with
  | replaced x hs ha hx => exact .inr ⟨ha, rfl, rfl, rfl⟩
  | _ => exact .inl ⟨rfl, rfl⟩

/-- Settles O49: the flags are kept, raised together by the end of an active press, or lowered by a read or `BT_RESET`. -/
theorem flagsChangeOnlyByReleasesAndTheirReads : Obligations.FlagsChangeOnlyByReleasesAndTheirReads := by
  intro i s u h
  have hmove := exec_session_moves h
  generalize u.bt = b at hmove ⊢
  cases hmove with
  | kept => simp +contextual
  | frame _ t _ _ hm =>
    rcases hm.flags with ⟨hr, ht⟩ | ⟨ha, hr, ht, htype⟩
    · simp +contextual [hr, ht]
    · obtain ⟨hpress, hactive⟩ := (active_iff s.bt).mp ha
      simpa [hr, ht, htype] using fun _ => ⟨hpress, hactive⟩
  | released _ hs ha =>
    obtain ⟨hpress, hactive⟩ := (active_iff s.bt).mp ha
    simpa using fun _ => ⟨hpress, hactive⟩
  | toFlagRead => simp +contextual
  | relFlagRead => simp +contextual
  | reset => simp

end Sys2Proof.Machine
end

section
/-!
PROOFS. The invariant of the registers (10_state R42 to R44, and the width of the time registers): it holds after reset, each
group's part is kept by every move of its group, and so by every step; the statements O50 and O51.
-/

namespace Sys2Proof.Machine

/-! ## After reset. -/

theorem decoderInv_reset : decoderInv .reset := by simp [decoderInv]

theorem frameInv_reset : frameInv .reset := by simp [frameInv]

theorem trackerInv_reset : trackerInv .reset := by simp [trackerInv]

theorem inv_of_reset {u : State} (hd : u.dec = .reset) (hl : u.lf = .reset) (hb : u.bt = .reset) : u.Inv := by
  rw [State.Inv, widthInv, hd, hl, hb]
  exact ⟨decoderInv_reset, frameInv_reset, trackerInv_reset, timeFits_zero _, timeFits_zero _, timeFits_zero _,
    timeFits_zero _⟩

/-- Settles O50. -/
theorem invariantHoldsAfterReset : Obligations.InvariantHoldsAfterReset := fun _ _ => inv_of_reset rfl rfl rfl

/-! ## The decoder's registers. -/

theorem decoderInv_of_cleared {d : DecodeState}
    (h : d.half = false ∧ d.bitIndex = 0 ∧ d.buf = 0 ∧ d.markDur = 0) : decoderInv d := by
  obtain ⟨hh, hk, hbuf, hm⟩ := h
  exact ⟨fun _ => ⟨hh, hk, hbuf, hm⟩, fun _ => ⟨fun i _ => by simp [hbuf], fun _ => hm⟩⟩

theorem decoderInv_clear (d : DecodeState) : decoderInv d.clear := decoderInv_of_cleared ⟨rfl, rfl, rfl, rfl⟩

/-- A bit at the current position leaves every bit beyond it 0. -/
theorem decoderInv_nextBit {d : DecodeState} (b : Bool) (h : decoderInv d) (hs : d.st = .receivingData)
    (hk : d.bitIndex < 31#5) : decoderInv (nextBit (putBit b d)) := by
  obtain ⟨hzero, -⟩ := h.2 hs
  have hklt : d.bitIndex.toNat < 31 := hk
  have hnext : (d.bitIndex + 1#5).toNat = d.bitIndex.toNat + 1 := by bv_omega
  refine ⟨fun hne => absurd hs hne, fun _ => ⟨fun i hi => ?_, fun _ => rfl⟩⟩
  rw [nextBit_bitIndex, putBit_bitIndex, hnext] at hi
  rw [nextBit_buf, putBit_buf, bufSetBit_getLsbD, if_neg (by omega)]
  exact hzero i (by omega)

section
variable {c : Config} {m : Bool} {t dur : Ts} {e : DecodeState} {l : LastDecodedFrame} {o : EdgeOutcome}

theorem EdgeMove.keeps_decoderInv (hmove : EdgeMove c m t dur e l o) (h : decoderInv e) : decoderInv o.dec := by
  cases hmove with
  | ignored => exact h
  | leadMark hs => exact decoderInv_of_cleared (h.1 (by simp [hs]))
  | dataLead => exact decoderInv_of_cleared ⟨rfl, rfl, rfl, rfl⟩
  | bitMark hs => exact ⟨fun hne => absurd hs hne, fun _ => ⟨(h.2 hs).1, by simp⟩⟩
  | bitSpace b hs _ _ hk => exact decoderInv_nextBit b h hs hk
  | repeatFound | dataFound | aborted => exact decoderInv_clear _

theorem EdgeMove.keeps_markDur_fits (hmove : EdgeMove c m t dur e l o) (hdur : timeFits c dur = true)
    (h : timeFits c e.markDur = true) : timeFits c o.dec.markDur = true := by
  cases hmove with
  | ignored | leadMark => exact h
  | bitMark => exact hdur
  | dataLead | bitSpace | repeatFound | dataFound | aborted => exact timeFits_zero c

end

section
variable (c : Config) (m : Bool) (t : Ts) (d : DecodeState) (l : LastDecodedFrame)

theorem edgePrepare_keeps_decoderInv (h : decoderInv d) : decoderInv (edgePrepare c t d) := by
  rcases edgePrepare_cases c t d with ⟨-, heq⟩ | ⟨-, heq⟩ <;> rw [heq]
  · exact h
  · exact decoderInv_clear _

theorem edgePrepare_keeps_markDur_fits (h : timeFits c d.markDur = true) :
    timeFits c (edgePrepare c t d).markDur = true := by
  rcases edgePrepare_cases c t d with ⟨-, heq⟩ | ⟨-, heq⟩ <;> rw [heq]
  · exact h
  · exact timeFits_zero c

theorem edgeTransition_keeps_decoderInv (h : decoderInv d) : decoderInv (edgeTransition c m t d l).dec :=
  (edgeDispatch_moves ..).keeps_decoderInv (edgePrepare_keeps_decoderInv c t d h)

theorem edgeTransition_keeps_markDur_fits (h : timeFits c d.markDur = true) :
    timeFits c (edgeTransition c m t d l).dec.markDur = true :=
  (edgeDispatch_moves ..).keeps_markDur_fits (subTs_fits c t d.lastEdgeTime) (edgePrepare_keeps_markDur_fits c t d h)

/-! ## The frame registers. -/

variable {l}

theorem frameInv_of_stored (hk : l.kind ≠ .noProtocol) : frameInv l := by
  refine ⟨fun _ => ?_, fun hnone => absurd hnone hk⟩
  cases hkind : l.kind with
  | noProtocol => exact absurd hkind hk
  | dataFrame => exact .inl rfl
  | repeatFrame => exact .inr rfl

theorem edgeTransition_keeps_frameInv (h : frameInv l) : frameInv (edgeTransition c m t d l).lf := by
  rcases edgeTransition_lf c m t d l with hkept | ⟨-, hkind, -⟩
  · rwa [hkept]
  · exact frameInv_of_stored hkind

theorem edgeTransition_keeps_time_fits (ht : timeFits c t = true) (h : timeFits c l.time = true) :
    timeFits c (edgeTransition c m t d l).lf.time = true := by
  rcases edgeTransition_lf c m t d l with hkept | ⟨-, -, htime, -⟩
  · rwa [hkept]
  · rwa [htime]

theorem frameAfter_keeps_frameInv (i : Instr) (h : frameInv l) : frameInv (frameAfter l i) := by
  rcases frameAfter_cases l i with heq | ⟨-, heq⟩ <;> rw [heq]
  · exact h
  · exact ⟨by simp, fun hnone => by simp [h.2 hnone]⟩

theorem frameAfter_time (l : LastDecodedFrame) (i : Instr) : (frameAfter l i).time = l.time := by
  obtain ⟨-, -, -, htime⟩ := frameData_of_claimFrame_eq (claimFrame_frameAfter l i)
  exact htime

end

/-! ## The session. -/

/-- Once a press has started, R44 asks nothing more. -/
theorem trackerInv_of_pressed {b : ButtonSession} (h : b.pressCount ≠ 0) : trackerInv b :=
  ⟨fun hzero => absurd hzero h, fun _ => Nat.one_le_iff_ne_zero.mpr fun hzero => h (BitVec.eq_of_toNat_eq hzero)⟩

theorem FrameMove.keeps_trackerInv {b b' : ButtonSession} {t : Ts} {starts : Bool} (hmove : FrameMove b t starts b')
    (h : trackerInv b) : trackerInv b' := by
  cases hmove with
  | ignored => exact h
  | held _ ha | refreshed _ ha => exact trackerInv_of_pressed ((active_iff b).mp ha).1
  | pressedAgain => exact trackerInv_of_pressed (satInc_ne_zero _)
  | pressed | pressedOther | replaced => exact trackerInv_of_pressed (by simp)

theorem FrameMove.lastEventTime_eq {b b' : ButtonSession} {t : Ts} {starts : Bool} (hmove : FrameMove b t starts b') :
    b'.lastEventTime = b.lastEventTime ∨ b'.lastEventTime = t := by
  cases hmove with
  | ignored => exact .inl rfl
  | _ => exact .inr rfl

theorem timeFits_of_timeOperand {c : Config} {i : Instr} {t : Ts} (hw : i.wellFormed c = true)
    (h : timeOperand i = some t) : timeFits c t = true := by
  cases i with
  | edge | fdTimeout | btFrame | btChkTo | btPoll =>
    rw [timeOperand, Option.some.injEq] at h
    exact h ▸ hw
  | _ => simp [timeOperand] at h

section
variable {s : State} {i : Instr} {b : ButtonSession} (hmove : SessionMove s i b)
include hmove

theorem SessionMove.keeps_trackerInv (h : trackerInv s.bt) : trackerInv b := by
  cases hmove with
  | kept => exact h
  | frame _ _ _ _ hm => exact hm.keeps_trackerInv h
  | released _ _ ha => exact trackerInv_of_pressed ((active_iff s.bt).mp ha).1
  | toFlagRead | relFlagRead => exact ⟨fun hzero => by simp [h.1 hzero], h.2⟩
  | reset => exact trackerInv_reset

theorem SessionMove.keeps_lastEventTime_fits (hw : i.wellFormed s.cfg = true) (hlf : timeFits s.cfg s.lf.time = true)
    (h : timeFits s.cfg s.bt.lastEventTime = true) : timeFits s.cfg b.lastEventTime = true := by
  cases hmove with
  | kept | released | toFlagRead | relFlagRead => exact h
  | frame _ t _ ht hm =>
    rcases hm.lastEventTime_eq with heq | heq <;> rw [heq]
    · exact h
    · exact ht.elim (timeFits_of_timeOperand hw) fun hclaimed => hclaimed ▸ hlf
  | reset => exact timeFits_zero _

end

/-! ## Every operation and every step. -/

theorem exec_keeps_inv {i : Instr} {s u : State} (hw : i.wellFormed s.cfg = true) (h : s.Inv)
    (hexec : exec i s = .next u) : u.Inv := by
  obtain ⟨hdec, hlf, hbt, hmark, hedge, htime, hevent⟩ := h
  have hsession := exec_session_moves hexec
  have hbt' := hsession.keeps_trackerInv hbt
  have hevent' := hsession.keeps_lastEventTime_fits hw htime hevent
  rcases exec_cases hexec with ⟨p, rfl, rfl⟩ | ⟨m, t, rfl, rfl⟩ | ⟨-, rfl⟩
  · exact ⟨hdec, hlf, hbt, hmark, hedge, htime, hevent⟩
  · refine ⟨edgeTransition_keeps_decoderInv _ m t _ _ hdec, edgeTransition_keeps_frameInv _ m t _ hlf, hbt',
      edgeTransition_keeps_markDur_fits _ m t _ _ hmark, ?_, edgeTransition_keeps_time_fits _ m t _ hw htime, hevent'⟩
    exact (edgeTransition_lastEdgeTime s.cfg m t s.dec s.lf).symm ▸ hw
  · exact ⟨hdec, frameAfter_keeps_frameInv i hlf, hbt', hmark, hedge, (frameAfter_time s.lf i).symm ▸ htime, hevent'⟩

/-- Settles O51: a step waits, resets, or performs an operation whose operands fit. -/
theorem everyStepKeepsTheInvariant : Obligations.EveryStepKeepsTheInvariant := by
  intro s u h hstep
  rcases step_cases hstep with rfl | ⟨q, rfl⟩ | ⟨p, w, q, hexec⟩
  · exact h
  · exact inv_of_reset rfl rfl rfl
  · exact exec_keeps_inv (s := s.setIo q) (decode_wellFormed s.cfg p w) h hexec

end Sys2Proof.Machine
end

section
/-!
PROOFS. The reference encoder (30_encoding R90 to R94): the 32 data bits of a frame as those of one word in the order sent,
the multipliers its symbols use, the intervals of nominal length and their total; the statement O31.
-/

namespace Sys2Proof.Machine

/-! ## The data bits in the order sent. -/

/-- The bits of a word from data bit `j` on, `n` of them: data bit `k` is bit `31 - k` (20_memory R60). -/
def wordBits (w : BitVec 32) (j n : Nat) : List Bool := (List.range' j n).map fun k => w.getLsbD (31 - k)

theorem wordBits_succ (w : BitVec 32) (j n : Nat) :
    wordBits w j (n + 1) = w.getLsbD (31 - j) :: wordBits w (j + 1) n := rfl

theorem wordBits_append (w : BitVec 32) (j m n : Nat) :
    wordBits w j m ++ wordBits w (j + m) n = wordBits w j (m + n) := by
  rw [wordBits, wordBits, ← List.map_append, List.range'_append_1, wordBits]

/-- The symbols of data bits. -/
def bitsSymbols (c : Config) (bs : List Bool) : List Symbol := bs.flatMap (bitSymbols c)

theorem bitsSymbols_cons (c : Config) (b : Bool) (bs : List Bool) :
    bitsSymbols c (b :: bs) = bitSymbols c b ++ bitsSymbols c bs := List.flatMap_cons

theorem length_wordBits (w : BitVec 32) (j n : Nat) : (wordBits w j n).length = n := by simp [wordBits]

theorem length_bitsSymbols (c : Config) (bs : List Bool) : (bitsSymbols c bs).length = 2 * bs.length := by
  induction bs with
  | nil => rfl
  | cons b bs ih =>
    rw [bitsSymbols_cons, List.length_append, ih]
    simp only [bitSymbols, List.length_cons, List.length_nil]
    omega

theorem bitsSymbols_append (c : Config) (bs bs' : List Bool) :
    bitsSymbols c (bs ++ bs') = bitsSymbols c bs ++ bitsSymbols c bs' := List.flatMap_append

/-- R94: a byte is sent bit 7 first. -/
def byteBits (x : Byte) : List Bool := [7, 6, 5, 4, 3, 2, 1, 0].map fun i => x.getLsbD i

theorem byteSymbols_eq (c : Config) (x : Byte) : byteSymbols c x = bitsSymbols c (byteBits x) := rfl

theorem wordBits_byte (w : BitVec 32) {i : Nat} (hi : i < 4) : wordBits w (8 * i) 8 = byteBits (bufByte w i) := by
  have hbit {j k : Nat} (hk : 31 - k = 24 - 8 * i + j) (hj : j < 8) :
      w.getLsbD (31 - k) = (bufByte w i).getLsbD j := by rw [bufByte_getLsbD w i hj, hk]
  simp only [wordBits, byteBits, List.range', List.map_cons, List.map_nil, List.cons.injEq, and_true]
  refine ⟨hbit ?_ ?_, hbit ?_ ?_, hbit ?_ ?_, hbit ?_ ?_, hbit ?_ ?_, hbit ?_ ?_, hbit ?_ ?_, hbit ?_ ?_⟩ <;> omega

theorem wordBits_word (w : BitVec 32) : wordBits w 0 32 =
    byteBits (bufByte w 0) ++ byteBits (bufByte w 1) ++ byteBits (bufByte w 2) ++ byteBits (bufByte w 3) := by
  rw [← wordBits_byte w (by decide), ← wordBits_byte w (by decide), ← wordBits_byte w (by decide),
    ← wordBits_byte w (by decide), wordBits_append, wordBits_append, wordBits_append]

/-- The four bytes of a Data frame as the buffer holds them. -/
def frameWord (a : Addr) (x y : Byte) : BitVec 32 := a.extractLsb' 0 8 ++ a.extractLsb' 8 8 ++ x ++ y

theorem bufAddress_frameWord (a : Addr) (x y : Byte) : bufAddress (frameWord a x y) = a := by
  rw [frameWord, bufAddress_append]
  exact BitVec.extractLsb'_append_extractLsb'_eq_extractLsb' rfl |>.trans (extract_all a)

theorem bufCommand_frameWord (a : Addr) (x y : Byte) : bufCommand (frameWord a x y) = x := bufCommand_append ..

theorem complementGood_frameWord (a : Addr) (x : Byte) : complementGood (frameWord a x (~~~ x)) = true :=
  (complementGood_append_iff ..).mpr rfl

theorem wordBits_frameWord (a : Addr) (x y : Byte) : wordBits (frameWord a x y) 0 32 =
    byteBits (a.extractLsb' 0 8) ++ byteBits (a.extractLsb' 8 8) ++ byteBits x ++ byteBits y := by
  rw [wordBits_word, frameWord, bufByte_append_zero, bufByte_append_one, bufByte_append_two, bufByte_append_three]

theorem dataSymbols_eq (c : Config) (a : Addr) (x y : Byte) :
    dataSymbols c a x y = leadSymbols c ++ bitsSymbols c (wordBits (frameWord a x y) 0 32) := by
  simp only [dataSymbols, wordBits_frameWord, bitsSymbols_append, byteSymbols_eq, List.append_assoc]

/-- R90: the lead and 32 bits. -/
theorem length_dataSymbols (c : Config) (a : Addr) (x y : Byte) : (dataSymbols c a x y).length = 66 := by
  rw [dataSymbols_eq, List.length_append, length_bitsSymbols, length_wordBits]
  rfl

/-! ## The multipliers of a frame's symbols. -/

/-- The six window multipliers. -/
def multipliers (c : Config) : List Nat :=
  [c.mLeadMark, c.mLeadSpace, c.mHoldSpace, c.mBitMark, c.mZeroSpace, c.mOneSpace]

theorem pulses_of_mem_bitSymbols {c : Config} {b : Bool} {y : Symbol} (h : y ∈ bitSymbols c b) :
    y.pulses ∈ multipliers c := by
  simp only [bitSymbols, List.mem_cons, List.not_mem_nil, or_false] at h
  rcases h with rfl | rfl
  · simp [multipliers]
  · cases b <;> simp [multipliers]

theorem pulses_of_mem_frameSymbols {c : Config} {a : Addr} {x : Byte} {y : Symbol} (h : y ∈ frameSymbols c a x) :
    y.pulses ∈ multipliers c := by
  rw [frameSymbols, dataSymbols_eq] at h
  simp only [leadSymbols, bitsSymbols, List.mem_append, List.mem_cons, List.not_mem_nil, or_false,
    List.mem_flatMap] at h
  rcases h with ((rfl | rfl) | ⟨b, -, hb⟩) | rfl
  · simp [multipliers]
  · simp [multipliers]
  · exact pulses_of_mem_bitSymbols hb
  · simp [stopSymbol, multipliers]

theorem pulses_of_mem_repeatSymbols {c : Config} {y : Symbol} (h : y ∈ repeatSymbols c) : y.pulses ∈ multipliers c := by
  simp only [repeatSymbols, List.mem_cons, List.not_mem_nil, or_false] at h
  rcases h with rfl | rfl | rfl <;> simp [stopSymbol, multipliers]

/-! ## Intervals of nominal length. -/

section
variable {c : Config} (hc : configLegal c = true) (hn : necMultipliers c) {m : Nat} (hm : m ∈ multipliers c)
include hc hn hm

theorem toNat_ofNat_nominal : (BitVec.ofNat 32 (nominal c m)).toNat = nominal c m := by
  obtain ⟨htol, htol3⟩ := configLegal_tolerance hc
  have hden : c.tolDen * tLeadMark c < c.tolDen * 2 ^ c.tsW := by
    rw [Nat.mul_comm _ (2 ^ c.tsW)]
    exact (Nat.mul_le_mul_right _ (Nat.le_add_right ..)).trans_lt (configLegal_window hc)
  have hle : nominal c m ≤ tLeadMark c := Nat.mul_le_mul_right _ (le_mLeadMark_of_nec hn hm)
  have hpow : 2 ^ c.tsW ≤ 2 ^ 32 := Nat.pow_le_pow_right (by omega) (configLegal_width hc).2
  have hlt := Nat.lt_of_mul_lt_mul_left hden
  rw [BitVec.toNat_ofNat, Nat.mod_eq_of_lt (by omega)]

theorem inWindow_nominal (hp : 0 < c.pulse) : inWindow c (BitVec.ofNat 32 (nominal c m)) m = true := by
  have hnat := toNat_ofNat_nominal hc hn hm
  have hpos : 0 < m := by
    obtain ⟨h1, h2, h3, h4, h5, h6⟩ := hn
    simp only [multipliers, h1, h2, h3, h4, h5, h6, List.mem_cons, List.not_mem_nil, or_false] at hm
    omega
  exact inWindow_of_toNat_eq_nominal hc hnat ((Nat.mul_pos hpos hp).trans_eq hnat.symm)

end

section
variable {c : Config} (hc : configLegal c = true) (hn : necMultipliers c) (ys : List Symbol)
  (hys : ∀ y ∈ ys, y.pulses ∈ multipliers c)
include hc hn hys

theorem fitsSymbols_interval (hp : 0 < c.pulse) : fitsSymbols c ys (ys.map (Symbol.interval c)) = true := by
  induction ys with
  | nil => rfl
  | cons y ys ih =>
    rw [List.forall_mem_cons] at hys
    simp [fitsSymbols, Symbol.interval, inWindow_nominal hc hn hys.1 hp, ih hys.2]

theorem sum_interval_dur :
    ((ys.map (Symbol.interval c)).map fun v => v.dur.toNat).sum = (ys.map Symbol.pulses).sum * c.pulse := by
  induction ys with
  | nil => simp
  | cons y ys ih =>
    rw [List.forall_mem_cons] at hys
    have hdur : (y.interval c).dur.toNat = y.pulses * c.pulse := toNat_ofNat_nominal hc hn hys.1
    simp only [List.map_cons, List.sum_cons, ih hys.2, hdur, Nat.add_mul]

end

/-! ## The total length. -/

/-- R94: a bit takes 2 pulses, and 2 more if it is a 1. -/
theorem sum_bitsSymbols_pulses {c : Config} (hn : necMultipliers c) (bs : List Bool) :
    ((bitsSymbols c bs).map Symbol.pulses).sum = 2 * bs.length + 2 * (bs.map Bool.toNat).sum := by
  obtain ⟨-, -, -, hmark, hzero, hone⟩ := hn
  induction bs with
  | nil => rfl
  | cons b bs ih =>
    rw [bitsSymbols_cons, List.map_append, List.sum_append, ih]
    cases b <;> simp [bitSymbols, hmark, hzero, hone] <;> omega

theorem length_filter_eq_sum {α : Type} (p : α → Bool) (xs : List α) :
    (xs.filter p).length = (xs.map fun a => (p a).toNat).sum := by
  induction xs with
  | nil => rfl
  | cons x xs ih => cases h : p x <;> simp [h, ih, Nat.add_comm]

/-- The number of ones of a byte. -/
def ones (x : Byte) : Nat := ((byteBits x).map Bool.toNat).sum

theorem ones_add_ones_not (x : Byte) : ones x + ones (~~~ x) = 8 := by
  revert x
  decide

theorem ones_address (a : Addr) :
    ones (a.extractLsb' 0 8) + ones (a.extractLsb' 8 8) = ((List.range 16).filter fun j => a.getLsbD j).length := by
  have hlow (j : Nat) (hj : j < 8) : (a.extractLsb' 0 8).getLsbD j = a.getLsbD j := by simp [hj]
  have hhigh (j : Nat) (hj : j < 8) : (a.extractLsb' 8 8).getLsbD j = a.getLsbD (8 + j) := by simp [hj]
  rw [length_filter_eq_sum, show List.range 16 = [0, 1, 2, 3, 4, 5, 6, 7, 8, 9, 10, 11, 12, 13, 14, 15] from rfl]
  simp (disch := decide) only [ones, byteBits, List.map_cons, List.map_nil, List.sum_cons, List.sum_nil, hlow, hhigh,
    Nat.reduceAdd]
  omega

/-- The command and its complement have 8 ones together. -/
theorem sum_wordBits_frameWord (a : Addr) (x : Byte) :
    ((wordBits (frameWord a x (~~~ x)) 0 32).map Bool.toNat).sum =
      8 + ((List.range 16).filter fun j => a.getLsbD j).length := by
  have hcommand := ones_add_ones_not x
  have haddress := ones_address a
  simp only [wordBits_frameWord, List.map_append, List.sum_append]
  simp only [ones] at hcommand haddress
  omega

theorem sum_frameSymbols_pulses {c : Config} (hn : necMultipliers c) (a : Addr) (x : Byte) :
    ((frameSymbols c a x).map Symbol.pulses).sum =
      89 + 2 * (8 + ((List.range 16).filter fun j => a.getLsbD j).length) := by
  have hbits := sum_bitsSymbols_pulses hn (wordBits (frameWord a x (~~~ x)) 0 32)
  rw [length_wordBits, sum_wordBits_frameWord] at hbits
  obtain ⟨hlead, hspace, -, hmark, -⟩ := hn
  simp only [frameSymbols, dataSymbols_eq, leadSymbols, stopSymbol, List.map_append, List.sum_append, hbits,
    List.map_cons, List.map_nil, List.sum_cons, List.sum_nil, hlead, hspace, hmark]
  omega

/-- Settles O31: intervals of nominal length fit their symbols, and their total is that of the multipliers. -/
theorem referenceEncoderShape : Obligations.ReferenceEncoderShape := by
  intro c a x hc hn hp
  refine ⟨fitsSymbols_interval hc hn _ (fun _ => pulses_of_mem_frameSymbols) hp,
    fitsSymbols_interval hc hn _ (fun _ => pulses_of_mem_repeatSymbols) hp, ?_, ?_⟩
  · rw [encodeFrame, List.length_map, frameSymbols, List.length_append, length_dataSymbols]
    rfl
  · rw [encodeFrame, sum_interval_dur hc hn _ fun _ => pulses_of_mem_frameSymbols, sum_frameSymbols_pulses hn]

end Sys2Proof.Machine
end

section
/-!
PROOFS. Runs on an edge stream: a state whose E port presents the words of a list of edges and nothing else, the step that
takes the first of them, and runs in which every edge is answered `Pending`.
-/

namespace Sys2Proof.Machine

/-! ## Presented edges. -/

/-- The E port presents the words of the edges `es`, whose times fit, and nothing else is presented. -/
structure Feeding (c : Config) (es : List (Bool × Ts)) (s : State) : Prop where
  cfg : s.cfg = c
  fits : ∀ e ∈ es, timeFits c e.2 = true
  eIn : s.io.eIn = edgeWords es
  hIn : s.io.hIn = []
  rstIn : s.io.rstIn = 0

/-- The step that takes the first presented edge. -/
theorem Feeding.step {c : Config} (hc : configLegal c = true) {m : Bool} {t : Ts} {es : List (Bool × Ts)} {s : State}
    (h : Feeding c ((m, t) :: es) s) :
    ∃ u, step s = .next u ∧ u.dec = (edgeTransition c m t s.dec s.lf).dec ∧
      u.lf = (edgeTransition c m t s.dec s.lf).lf ∧ u.bt = s.bt ∧
      u.io.response = some { port := .edge, word := (edgeTransition c m t s.dec s.lf).result.reply.word } ∧
      Feeding c es u := by
  obtain ⟨rfl, hfits, hein, hhin, hrst⟩ := h
  have hdecode : decode s.cfg .edge (encode (.edge m t)).2 = .edge m t :=
    decode_formatE s.cfg m (hfits (m, t) List.mem_cons_self)
  have hword : s.io.eIn = (encode (.edge m t)).2 :: edgeWords es := hein
  have hstep := step_of_edge_alone hc hrst hword hhin
  rw [hdecode] at hstep
  exact ⟨_, hstep.trans (execEdge_next m t _), rfl, rfl, rfl, rfl,
    ⟨rfl, fun e he => hfits e (List.mem_cons_of_mem _ he), rfl, hhin, hrst⟩⟩

/-! ## Runs answered `Pending`. -/

/-- `n` steps from `s` to `v`, each of which answers `Pending` on the E port and keeps the frame registers and the
session. -/
inductive SilentRun : State → Nat → State → Prop where
  | done (s : State) : SilentRun s 0 s
  | next {s u v : State} {n : Nat} (hstep : step s = .next u)
      (hresponse : u.io.response = some { port := .edge, word := 0 }) (hlf : u.lf = s.lf) (hbt : u.bt = s.bt)
      (hrest : SilentRun u n v) : SilentRun s (n + 1) v

namespace SilentRun

variable {s u v : State} {m n : Nat}

theorem trans (h : SilentRun s m u) (h' : SilentRun u n v) : SilentRun s (m + n) v := by
  induction h with
  | done => rwa [Nat.zero_add]
  | next hstep hresponse hlf hbt _ ih =>
    rw [Nat.succ_add]
    exact .next hstep hresponse hlf hbt (ih h')

theorem lf_eq (h : SilentRun s n v) : v.lf = s.lf := by
  induction h with
  | done => rfl
  | next _ _ hlf _ _ ih => exact ih.trans hlf

theorem bt_eq (h : SilentRun s n v) : v.bt = s.bt := by
  induction h with
  | done => rfl
  | next _ _ _ hbt _ ih => exact ih.trans hbt

/-- A silent run is the beginning of every longer run. -/
theorem run_add (h : SilentRun s n v) (k : Nat) :
    Host.Core.run Sys2Proof.core (n + k) s = Host.Core.run Sys2Proof.core k v := by
  induction h with
  | done => rw [Nat.zero_add]
  | next hstep _ _ _ _ ih => rw [Nat.succ_add, run_succ_of_next hstep, ih]

theorem run_eq (h : SilentRun s n v) : Host.Core.run Sys2Proof.core n s = .next v := h.run_add 0

/-- Each step of a silent run answers `Pending`. -/
theorem answers (h : SilentRun s n v) {k : Nat} (hk : 1 ≤ k) (hkn : k ≤ n) :
    ∃ w, Host.Core.run Sys2Proof.core k s = .next w ∧ w.io.response = some { port := .edge, word := 0 } ∧
      w.lf = s.lf ∧ w.bt = s.bt := by
  induction h generalizing k with
  | done => omega
  | @next s u v n hstep hresponse hlf hbt _ ih =>
    obtain ⟨j, rfl⟩ : ∃ j, k = j + 1 := ⟨k - 1, by omega⟩
    rw [run_succ_of_next hstep]
    rcases Nat.eq_zero_or_pos j with rfl | hj
    · exact ⟨u, rfl, hresponse, hlf, hbt⟩
    · obtain ⟨w, hrun, hw, hwlf, hwbt⟩ := ih hj (by omega)
      exact ⟨w, hrun, hw, hwlf.trans hlf, hwbt.trans hbt⟩

end SilentRun

theorem pendingReply_word : DecodeResult.pending.reply.word = 0 := rfl

/-- An edge that continues with no frame and no error is a silent step. -/
theorem Feeding.silent {c : Config} (hc : configLegal c = true) {m : Bool} {t : Ts} {es : List (Bool × Ts)} {s : State}
    {d : DecodeState} (h : Feeding c ((m, t) :: es) s)
    (hpending : edgeTransition c m t s.dec s.lf = pendingWith d s.lf) :
    ∃ u, SilentRun s 1 u ∧ u.dec = d ∧ Feeding c es u := by
  obtain ⟨u, hstep, hdec, hlf, hbt, hresponse, hfeed⟩ := h.step hc
  rw [hpending] at hdec hlf hresponse
  rw [pendingWith_result, pendingReply_word] at hresponse
  exact ⟨u, .next hstep hresponse hlf hbt (.done u), hdec, hfeed⟩

/-! ## A reported frame and its stop mark. -/

/-- After `n` silent steps the next edge is answered with the reply `r`, the frame registers are `l`, and the decode state is
the cleared one; the edges `es` are still presented. -/
def ReportsFrame (c : Config) (es : List (Bool × Ts)) (s : State) (n : Nat) (r : Reply) (l : LastDecodedFrame)
    (t : Ts) : Prop :=
  ∃ u v, SilentRun s n u ∧ step u = .next v ∧ v.io.response = some { port := .edge, word := r.word } ∧ v.lf = l ∧
    v.bt = u.bt ∧ v.dec = clearedAt t ∧ Feeding c es v

theorem ReportsFrame.after_silent {c : Config} {es : List (Bool × Ts)} {s u : State} {m n : Nat} {r : Reply}
    {l : LastDecodedFrame} {t : Ts} (hsilent : SilentRun s m u) (h : ReportsFrame c es u n r l t) :
    ReportsFrame c es s (m + n) r l t := by
  obtain ⟨v, w, hrun, hrest⟩ := h
  exact ⟨v, w, hsilent.trans hrun, hrest⟩

/-- An edge whose outcome reports a frame. -/
theorem Feeding.reports {c : Config} (hc : configLegal c = true) {m : Bool} {t : Ts} {es : List (Bool × Ts)} {s : State}
    (h : Feeding c ((m, t) :: es) s) (hdec : (edgeTransition c m t s.dec s.lf).dec = clearedAt t) :
    ReportsFrame c es s 0 (edgeTransition c m t s.dec s.lf).result.reply (edgeTransition c m t s.dec s.lf).lf t := by
  obtain ⟨u, hstep, hudec, hlf, hbt, hresponse, hfeed⟩ := h.step hc
  exact ⟨s, u, .done s, hstep, hresponse, hlf, hbt, hudec.trans hdec, hfeed⟩

end Sys2Proof.Machine
end

section
/-!
PROOFS. The round trip (30_encoding R91, R94; 41_frame_decoder R165, R166): each interval of a frame inside its window moves
the decoder on, a bit at a time; the statements O29 and O30.
-/

namespace Sys2Proof.Machine

/-! ## Intervals that fit their symbols. -/

theorem fitsSymbols_nil {c : Config} {vs : List Interval} (h : fitsSymbols c [] vs = true) : vs = [] := by
  cases vs with
  | nil => rfl
  | cons v vs => simp [fitsSymbols] at h

theorem fitsSymbols_cons {c : Config} {y : Symbol} {ys : List Symbol} {vs : List Interval}
    (h : fitsSymbols c (y :: ys) vs = true) :
    ∃ dur ws, vs = { isMark := y.isMark, dur := dur } :: ws ∧ inWindow c dur y.pulses = true ∧
      fitsSymbols c ys ws = true := by
  cases vs with
  | nil => simp [fitsSymbols] at h
  | cons v ws =>
    simp only [fitsSymbols, Bool.and_eq_true, beq_iff_eq] at h
    obtain ⟨⟨hmark, hw⟩, hrest⟩ := h
    exact ⟨v.dur, ws, by rw [← hmark], hw, hrest⟩

theorem fitsSymbols_append {c : Config} {ys zs : List Symbol} {vs : List Interval}
    (h : fitsSymbols c (ys ++ zs) vs = true) :
    ∃ us ws, vs = us ++ ws ∧ fitsSymbols c ys us = true ∧ fitsSymbols c zs ws = true := by
  induction ys generalizing vs with
  | nil => exact ⟨[], vs, rfl, rfl, h⟩
  | cons y ys ih =>
    obtain ⟨dur, vs', rfl, hw, hrest⟩ := fitsSymbols_cons h
    obtain ⟨us, ws, rfl, hus, hws⟩ := ih hrest
    exact ⟨_ :: us, ws, rfl, by simp [fitsSymbols, hw, hus], hws⟩

theorem fitsSymbols_length {c : Config} {ys : List Symbol} {vs : List Interval} (h : fitsSymbols c ys vs = true) :
    vs.length = ys.length := by
  induction ys generalizing vs with
  | nil => rw [fitsSymbols_nil h]; rfl
  | cons y ys ih =>
    obtain ⟨dur, ws, rfl, -, hrest⟩ := fitsSymbols_cons h
    rw [List.length_cons, List.length_cons, ih hrest]

/-- A bit is a mark in the window of bit marks and a space in the window of its value. -/
theorem fitsSymbols_bit {c : Config} {b : Bool} {ys : List Symbol} {vs : List Interval}
    (h : fitsSymbols c (bitSymbols c b ++ ys) vs = true) :
    ∃ mark space ws, vs = { isMark := true, dur := mark } :: { isMark := false, dur := space } :: ws ∧
      inWindow c mark c.mBitMark = true ∧ inWindow c space (if b then c.mOneSpace else c.mZeroSpace) = true ∧
      fitsSymbols c ys ws = true := by
  obtain ⟨mark, vs', rfl, hmark, h'⟩ := fitsSymbols_cons h
  obtain ⟨space, ws, rfl, hspace, hrest⟩ := fitsSymbols_cons h'
  exact ⟨mark, space, ws, rfl, hmark, hspace, hrest⟩

theorem edgesFrom_append (c : Config) (t : Ts) (us ws : List Interval) :
    edgesFrom c t (us ++ ws) = edgesFrom c t us ++ edgesFrom c (endTime c t us) ws := by
  induction us generalizing t with
  | nil => rfl
  | cons v us ih => rw [List.cons_append, edgesFrom, ih, edgesFrom, endTime, List.cons_append]

theorem endTime_append (c : Config) (t : Ts) (us ws : List Interval) :
    endTime c t (us ++ ws) = endTime c (endTime c t us) ws := by
  induction us generalizing t with
  | nil => rfl
  | cons v us ih => rw [List.cons_append, endTime, ih, endTime]

theorem edgesFrom_fits (c : Config) (t : Ts) (vs : List Interval) : ∀ e ∈ edgesFrom c t vs, timeFits c e.2 = true := by
  induction vs generalizing t with
  | nil => simp [edgesFrom]
  | cons v vs ih =>
    rw [edgesFrom, List.forall_mem_cons]
    exact ⟨advance_fits c t v.dur, ih _⟩

/-- The state that presents an edge stream. -/
theorem feeding_edgeStream {s : State} {t0 : Ts} {vs : List Interval} (ht : timeFits s.cfg t0 = true)
    (he : s.io.eIn = edgeWords (edgeStream s.cfg t0 vs)) (hh : s.io.hIn = []) (hr : s.io.rstIn = 0) :
    Feeding s.cfg ((false, t0) :: edgesFrom s.cfg t0 vs) s :=
  ⟨rfl, List.forall_mem_cons.mpr ⟨ht, edgesFrom_fits s.cfg t0 vs⟩, he, hh, hr⟩

/-! ## One interval of a frame. -/

/-- The first edge, whose duration is not judged: it leaves the decoder in `Idle`, in a decode state that the lead space
overwrites. -/
theorem edgeTransition_first (c : Config) (t0 : Ts) {d : DecodeState} (l : LastDecodedFrame)
    (h : d.st = .idle ∨ tFrame c < (durationOf c d t0).toNat) :
    ∃ d', edgeTransition c false t0 d l = pendingWith d' l ∧ d'.st = .idle ∧ d'.lastEdgeTime = t0 := by
  rcases lt_or_ge (tFrame c) (durationOf c d t0).toNat with hlong | hle
  · exact ⟨clearedAt t0, (edgeTransition_of_timeout hlong).trans (edgeInIdle_ignored (.inl rfl)), rfl, rfl⟩
  · have hs : d.st = .idle := h.resolve_right (by omega)
    exact ⟨_, (edgeTransition_of_idle hle hs).trans (edgeInIdle_ignored (.inl rfl)), hs, rfl⟩

section
variable {c : Config} (hc : configLegal c = true) {d : DecodeState} {dur : Ts}
include hc

/-- An edge that ends an interval in a window finds the interval's length, and no timeout. -/
theorem durationOf_advance {m : Nat} (hm : m ≤ c.mLeadMark) (hw : inWindow c dur m = true) :
    durationOf c d (advance c d.lastEdgeTime dur) = dur ∧
      (durationOf c d (advance c d.lastEdgeTime dur)).toNat ≤ tFrame c := by
  have hduration : durationOf c d (advance c d.lastEdgeTime dur) = dur :=
    subTs_advance (configLegal_width hc).2 d.lastEdgeTime (timeFits_of_inWindow hc hm hw)
  exact ⟨hduration, hduration.symm ▸ toNat_le_tFrame_of_inWindow hc hm hw⟩

theorem edgeTransition_leadMark (l : LastDecodedFrame) (hs : d.st = .idle) (hw : inWindow c dur c.mLeadMark = true) :
    edgeTransition c true (advance c d.lastEdgeTime dur) d l =
      pendingWith (enterLead { d with lastEdgeTime := advance c d.lastEdgeTime dur }) l := by
  obtain ⟨hdur, hle⟩ := durationOf_advance hc (d := d) le_rfl hw
  rw [edgeTransition_of_idle hle hs, hdur, edgeInIdle_leadMark hw]

variable (hn : necMultipliers c)
include hn

theorem edgeTransition_leadSpace (l : LastDecodedFrame) (hs : d.st = .receivingLead)
    (hw : inWindow c dur c.mLeadSpace = true) :
    edgeTransition c false (advance c d.lastEdgeTime dur) d l =
      pendingWith (startData { d with lastEdgeTime := advance c d.lastEdgeTime dur }) l := by
  obtain ⟨hdur, hle⟩ := durationOf_advance hc (d := d) (le_mLeadMark_of_nec hn (by simp)) hw
  rw [edgeTransition_of_receivingLead hle hs, hdur, edgeInLead_dataLead (classifyLeadSpace_dataLead_iff.mpr hw)]

theorem edgeTransition_holdSpace (l : LastDecodedFrame) (hs : d.st = .receivingLead)
    (hw : inWindow c dur c.mHoldSpace = true) :
    edgeTransition c false (advance c d.lastEdgeTime dur) d l =
      repeatReady (advance c d.lastEdgeTime dur) { d with lastEdgeTime := advance c d.lastEdgeTime dur } l := by
  obtain ⟨hdur, hle⟩ := durationOf_advance hc (d := d) (le_mLeadMark_of_nec hn (by simp)) hw
  have hclass := (classifyLeadSpace_holding_iff (not_leadSpace_of_holdSpace hc hn)).mpr hw
  rw [edgeTransition_of_receivingLead hle hs, hdur, edgeInLead_holding hclass]

theorem edgeTransition_bitMark (l : LastDecodedFrame) (hs : d.st = .receivingData) (hh : d.half = false)
    (hw : inWindow c dur c.mBitMark = true) :
    edgeTransition c true (advance c d.lastEdgeTime dur) d l =
      pendingWith (keepMark dur { d with lastEdgeTime := advance c d.lastEdgeTime dur }) l := by
  obtain ⟨hdur, hle⟩ := durationOf_advance hc (d := d) (le_mLeadMark_of_nec hn (by simp)) hw
  rw [edgeTransition_of_receivingData hle hs, hdur]
  exact edgeInData_mark hh

theorem classifyBit_of_windows {mark space : Ts} {b : Bool} (hm : inWindow c mark c.mBitMark = true)
    (hs : inWindow c space (if b then c.mOneSpace else c.mZeroSpace) = true) :
    classifyBit c mark space = if b then .one else .zero := by
  cases b with
  | false => exact classifyBit_zero_iff.mpr ⟨hm, hs⟩
  | true => exact (classifyBit_one_iff (not_oneSpace_of_zeroSpace hc hn)).mpr ⟨hm, hs⟩

theorem edgeTransition_bitSpace (l : LastDecodedFrame) {b : Bool} (hs : d.st = .receivingData) (hh : d.half = true)
    (hm : inWindow c d.markDur c.mBitMark = true)
    (hw : inWindow c dur (if b then c.mOneSpace else c.mZeroSpace) = true) :
    edgeTransition c false (advance c d.lastEdgeTime dur) d l =
      acceptBit b (advance c d.lastEdgeTime dur) { d with lastEdgeTime := advance c d.lastEdgeTime dur } l := by
  have hle : (if b then c.mOneSpace else c.mZeroSpace) ≤ c.mLeadMark :=
    le_mLeadMark_of_nec hn (by cases b <;> simp)
  obtain ⟨hdur, hle⟩ := durationOf_advance hc (d := d) hle hw
  rw [edgeTransition_of_receivingData hle hs, hdur]
  exact edgeInData_bit hh (classifyBit_of_windows hc hn hm hw)

/-- R165: a stop mark is no lead mark, and leaves the decoder as it is after a frame. -/
theorem edgeTransition_stopMark (l : LastDecodedFrame) (t : Ts) (hw : inWindow c dur c.mBitMark = true) :
    edgeTransition c true (advance c t dur) (clearedAt t) l = pendingWith (clearedAt (advance c t dur)) l := by
  obtain ⟨hdur, hle⟩ := durationOf_advance hc (d := clearedAt t) (le_mLeadMark_of_nec hn (by simp)) hw
  have hignored := edgeInIdle_ignored (c := c) (m := true) (d := clearedAt (advance c t dur)) (l := l)
    (.inr (not_leadMark_of_bitMark hc hn hw))
  have hrule := edgeTransition_of_idle (m := true) (l := l) hle rfl
  rw [hdur] at hrule
  exact hrule.trans hignored

end

/-! ## The lead and the stop mark. -/

section
variable {c : Config} (hc : configLegal c = true)
include hc

/-- After the first edge and the lead mark, two silent steps, a lead space is due. -/
theorem lead_silent {s : State} {t0 mark : Ts} {es : List (Bool × Ts)}
    (hfeed : Feeding c ((false, t0) :: (true, advance c t0 mark) :: es) s)
    (hstart : s.dec.st = .idle ∨ tFrame c < (durationOf c s.dec t0).toNat)
    (hw : inWindow c mark c.mLeadMark = true) :
    ∃ u, SilentRun s 2 u ∧ u.dec.st = .receivingLead ∧ u.dec.lastEdgeTime = advance c t0 mark ∧ Feeding c es u := by
  obtain ⟨d, hfirst, hidle, rfl⟩ := edgeTransition_first c t0 s.lf hstart
  obtain ⟨u, hsilent, rfl, hfeed'⟩ := hfeed.silent hc hfirst
  obtain ⟨v, hsilent', hdec, hfeed''⟩ := hfeed'.silent hc (edgeTransition_leadMark hc u.lf hidle hw)
  exact ⟨v, hsilent.trans hsilent', by rw [hdec, enterLead_st], by rw [hdec, enterLead_lastEdgeTime], hfeed''⟩

/-- The answers to a frame that ends with its stop mark: `Pending`, the frame, and `Pending` again. -/
theorem reported_frame_answers (hn : necMultipliers c) {s : State} {n : Nat} {r : Reply} {l : LastDecodedFrame}
    {t dur : Ts} (h : ReportsFrame c [(true, advance c t dur)] s n r l t) (hw : inWindow c dur c.mBitMark = true) :
    (∀ k : Nat, 1 ≤ k → k ≤ n → ∃ u : State, Host.Core.run Sys2Proof.core k s = .next u ∧
      u.io.response = some { port := .edge, word := 0 } ∧ u.lf = s.lf ∧ u.bt = s.bt) ∧
    (∃ u : State, Host.Core.run Sys2Proof.core (n + 1) s = .next u ∧
      u.io.response = some { port := .edge, word := r.word } ∧ u.lf = l ∧ u.bt = s.bt) ∧
    (∃ u : State, Host.Core.run Sys2Proof.core (n + 2) s = .next u ∧
      u.io.response = some { port := .edge, word := 0 } ∧ u.lf = l ∧ u.dec = clearedAt (advance c t dur) ∧
      u.bt = s.bt ∧ u.io.eIn = []) := by
  obtain ⟨u, v, hsilent, hstep, hresponse, hlf, hbt, hdec, hfeed⟩ := h
  have hstop := edgeTransition_stopMark hc hn v.lf t hw
  rw [← hdec] at hstop
  obtain ⟨w, hlast, hwdec, hwfeed⟩ := hfeed.silent hc hstop
  have hvbt : v.bt = s.bt := hbt.trans hsilent.bt_eq
  obtain ⟨w', hrun, hwresponse, -, -⟩ := hlast.answers le_rfl le_rfl
  obtain rfl : w = w' := Host.Outcome.next.inj (hlast.run_eq.symm.trans hrun)
  refine ⟨fun k hk hkn => hsilent.answers hk hkn, ⟨v, ?_, hresponse, hlf, hvbt⟩, ⟨w, ?_, hwresponse,
    hlast.lf_eq.trans hlf, hwdec, hlast.bt_eq.trans hvbt, hwfeed.eIn⟩⟩
  · exact (hsilent.run_add 1).trans (run_succ_of_next hstep)
  · exact (hsilent.run_add 2).trans ((run_succ_of_next hstep).trans hrun)

end

/-! ## Repeat frames. -/

/-- Settles O30: the lead, and a space in the window of Repeat frames. -/
theorem everyWellFormedRepeatFrameIsDecoded : Obligations.EveryWellFormedRepeatFrameIsDecoded := by
  intro s t0 vs hc hn ht hstart hfits he hh hr
  have hfeed := feeding_edgeStream ht he hh hr
  obtain ⟨mark, vs, rfl, hmark, hfits⟩ := fitsSymbols_cons hfits
  obtain ⟨space, vs, rfl, hspace, hfits⟩ := fitsSymbols_cons hfits
  obtain ⟨stop, vs, rfl, hstop, hfits⟩ := fitsSymbols_cons hfits
  obtain rfl := fitsSymbols_nil hfits
  obtain ⟨u, hsilent, hst, htime, hfeed⟩ := lead_silent hc hfeed hstart hmark
  have hready := edgeTransition_holdSpace hc hn u.lf hst hspace
  rw [htime] at hready
  have hreport := hfeed.reports hc (hready ▸ rfl)
  rw [hready, hsilent.lf_eq] at hreport
  exact reported_frame_answers hc hn (hreport.after_silent hsilent) hstop

end Sys2Proof.Machine
end

section
/-!
PROOFS. The round trip of a Data frame (41_frame_decoder R166): the decoder after `j` data bits of a word holds the word's
first `j` bits, each bit is two silent steps, and the last one completes the frame; the statement O29.
-/

namespace Sys2Proof.Machine

/-! ## The decoder between two bits. -/

/-- The buffer holds the first `j` data bits of the word. -/
def holdsBits (w : BitVec 32) (j : Nat) (buf : BitVec 32) : Prop :=
  ∀ i, 32 - j ≤ i → buf.getLsbD i = w.getLsbD i

/-- The mark of data bit `j` is due, the bits before it are those of the word, and the last edge was at `t`. -/
structure AtBit (w : BitVec 32) (j : Nat) (t : Ts) (d : DecodeState) : Prop where
  st : d.st = .receivingData
  half : d.half = false
  bitIndex : d.bitIndex.toNat = j
  buf : holdsBits w j d.buf
  lastEdgeTime : d.lastEdgeTime = t

/-- The space of data bit `j` is due, whose mark was `mark` long; the rest as in `AtBit`. -/
structure AtSpace (w : BitVec 32) (j : Nat) (t mark : Ts) (d : DecodeState) : Prop where
  st : d.st = .receivingData
  half : d.half = true
  bitIndex : d.bitIndex.toNat = j
  buf : holdsBits w j d.buf
  markDur : d.markDur = mark
  lastEdgeTime : d.lastEdgeTime = t

theorem holdsBits_zero (w buf : BitVec 32) : holdsBits w 0 buf := by
  intro i hi
  rw [BitVec.getLsbD_of_ge _ _ hi, BitVec.getLsbD_of_ge _ _ hi]

theorem holdsBits_putBit {w buf : BitVec 32} {k : BitVec 5} (h : holdsBits w k.toNat buf) :
    holdsBits w (k.toNat + 1) (bufSetBit buf k (w.getLsbD (31 - k.toNat))) := by
  intro i hi
  rw [bufSetBit_getLsbD]
  split
  next hk => rw [hk]
  next hk => exact h i (by omega)

theorem eq_of_holdsBits {w buf : BitVec 32} (h : holdsBits w 32 buf) : buf = w :=
  BitVec.eq_of_getLsbD_eq fun i _ => h i (by omega)

theorem atBit_startData (w : BitVec 32) {d : DecodeState} {t : Ts} (h : d.lastEdgeTime = t) :
    AtBit w 0 t (startData d) :=
  ⟨rfl, rfl, rfl, holdsBits_zero w _, h⟩

theorem atSpace_keepMark {w : BitVec 32} {j : Nat} {t : Ts} {d : DecodeState} (h : AtBit w j t d) (t' mark : Ts) :
    AtSpace w j t' mark (keepMark mark { d with lastEdgeTime := t' }) :=
  ⟨h.st, rfl, h.bitIndex, h.buf, rfl, rfl⟩

theorem atBit_nextBit {w : BitVec 32} {j : Nat} {t mark : Ts} {d : DecodeState} (h : AtSpace w j t mark d) (hj : j < 31)
    (t' : Ts) :
    AtBit w (j + 1) t' (nextBit (putBit (w.getLsbD (31 - j)) { d with lastEdgeTime := t' })) := by
  obtain ⟨hst, -, rfl, hbuf, -, -⟩ := h
  have hnext : (d.bitIndex + 1#5).toNat = d.bitIndex.toNat + 1 := by bv_omega
  exact ⟨hst, rfl, hnext, holdsBits_putBit hbuf, rfl⟩

/-- With its last bit the whole word is in the buffer. -/
theorem buf_putBit_last {w : BitVec 32} {t mark : Ts} {d : DecodeState} (h : AtSpace w 31 t mark d) (t' : Ts) :
    (putBit (w.getLsbD 0) { d with lastEdgeTime := t' }).buf = w := by
  have hput := holdsBits_putBit (h.bitIndex.symm ▸ h.buf : holdsBits w d.bitIndex.toNat d.buf)
  rw [h.bitIndex] at hput
  exact eq_of_holdsBits hput

/-- A full buffer whose complement is good reports its frame. -/
theorem completeFrame_of_frameWord {a : Addr} {x : Byte} {t : Ts} {d : DecodeState} (l : LastDecodedFrame)
    (h : d.buf = frameWord a x (~~~ x)) :
    completeFrame t d l =
      { dec := d.clear
        lf := { kind := .dataFrame, address := a, command := x, time := t, pending := true }
        result := .frameReady .dataFrame a x } := by
  have hgood : complementGood d.buf = true := h ▸ complementGood_frameWord a x
  rw [completeFrame_good ((complementGood_iff _).mp hgood), dataReady, storeData, h, bufAddress_frameWord,
    bufCommand_frameWord]

/-! ## Bits that arrive. -/

section
variable {c : Config} (hc : configLegal c = true) (hn : necMultipliers c)
include hc hn

/-- The mark of a bit is a silent step. -/
theorem bitMark_silent {w : BitVec 32} {j : Nat} {t mark : Ts} {s : State} {es : List (Bool × Ts)}
    (hat : AtBit w j t s.dec) (hfeed : Feeding c ((true, advance c t mark) :: es) s)
    (hw : inWindow c mark c.mBitMark = true) :
    ∃ u, SilentRun s 1 u ∧ AtSpace w j (advance c t mark) mark u.dec ∧ Feeding c es u := by
  have hspace := atSpace_keepMark hat (advance c t mark) mark
  obtain ⟨hst, hhalf, -, -, rfl⟩ := hat
  obtain ⟨u, hsilent, hdec, hfeed'⟩ := hfeed.silent hc (edgeTransition_bitMark hc hn s.lf hst hhalf hw)
  exact ⟨u, hsilent, hdec ▸ hspace, hfeed'⟩

/-- The space of bit `j` accepts the bit of the word. -/
theorem edgeTransition_of_atSpace {w : BitVec 32} {j : Nat} {t mark space : Ts} {d : DecodeState} (l : LastDecodedFrame)
    (hat : AtSpace w j t mark d) (hm : inWindow c mark c.mBitMark = true)
    (hw : inWindow c space (if w.getLsbD (31 - j) then c.mOneSpace else c.mZeroSpace) = true) :
    edgeTransition c false (advance c t space) d l =
      acceptBit (w.getLsbD (31 - j)) (advance c t space) { d with lastEdgeTime := advance c t space } l := by
  obtain ⟨hst, hhalf, -, -, rfl, rfl⟩ := hat
  exact edgeTransition_bitSpace hc hn l hst hhalf hm hw

/-- A bit that is not the last is two silent steps. -/
theorem bit_silent {w : BitVec 32} {j : Nat} {t mark space : Ts} {s : State} {es : List (Bool × Ts)}
    (hj : j < 31) (hat : AtBit w j t s.dec)
    (hfeed : Feeding c ((true, advance c t mark) :: (false, advance c (advance c t mark) space) :: es) s)
    (hm : inWindow c mark c.mBitMark = true)
    (hw : inWindow c space (if w.getLsbD (31 - j) then c.mOneSpace else c.mZeroSpace) = true) :
    ∃ u, SilentRun s 2 u ∧ AtBit w (j + 1) (advance c (advance c t mark) space) u.dec ∧ Feeding c es u := by
  obtain ⟨u, hsilent, hspace, hfeed'⟩ := bitMark_silent hc hn hat hfeed hm
  have haccept := edgeTransition_of_atSpace hc hn u.lf hspace hm hw
  obtain ⟨v, hsilent', hdec, hfeed''⟩ :=
    hfeed'.silent hc (haccept.trans (acceptBit_inner (hspace.bitIndex.trans_lt hj)))
  exact ⟨v, hsilent.trans hsilent', hdec ▸ atBit_nextBit hspace hj _, hfeed''⟩

/-- Bits before the last, from any position on. -/
theorem bits_silent {w : BitVec 32} (n : Nat) {j : Nat} {t : Ts} {vs : List Interval} {s : State} {es : List (Bool × Ts)}
    (hj : j + n ≤ 31) (hat : AtBit w j t s.dec) (hfits : fitsSymbols c (bitsSymbols c (wordBits w j n)) vs = true)
    (hfeed : Feeding c (edgesFrom c t vs ++ es) s) :
    ∃ u, SilentRun s (2 * n) u ∧ AtBit w (j + n) (endTime c t vs) u.dec ∧ Feeding c es u := by
  induction n generalizing j t vs s with
  | zero =>
    obtain rfl := fitsSymbols_nil hfits
    exact ⟨s, .done s, hat, hfeed⟩
  | succ n ih =>
    rw [wordBits_succ, bitsSymbols_cons] at hfits
    obtain ⟨mark, space, ws, rfl, hm, hw, hrest⟩ := fitsSymbols_bit hfits
    obtain ⟨u, hsilent, hat', hfeed'⟩ := bit_silent hc hn (by omega) hat hfeed hm hw
    obtain ⟨v, hsilent', hat'', hfeed''⟩ := ih (by omega) hat' hrest hfeed'
    rw [show 2 * (n + 1) = 2 + 2 * n by omega, show j + (n + 1) = j + 1 + n by omega]
    exact ⟨v, hsilent.trans hsilent', hat'', hfeed''⟩

/-- The last bit: its mark is a silent step, and its space reports the frame. -/
theorem lastBit_reports {a : Addr} {x : Byte} {t mark space : Ts} {s : State} {es : List (Bool × Ts)}
    (hat : AtBit (frameWord a x (~~~ x)) 31 t s.dec)
    (hfeed : Feeding c ((true, advance c t mark) :: (false, advance c (advance c t mark) space) :: es) s)
    (hm : inWindow c mark c.mBitMark = true)
    (hw : inWindow c space (if (frameWord a x (~~~ x)).getLsbD 0 then c.mOneSpace else c.mZeroSpace) = true) :
    ReportsFrame c es s 1 { dres := 1, kind := 1, address := a, command := x }
      { kind := .dataFrame, address := a, command := x, time := advance c (advance c t mark) space, pending := true }
      (advance c (advance c t mark) space) := by
  obtain ⟨u, hsilent, hspace, hfeed'⟩ := bitMark_silent hc hn hat hfeed hm
  have haccept := edgeTransition_of_atSpace hc hn u.lf hspace hm hw
  have hlast : u.dec.bitIndex = 31 := BitVec.eq_of_toNat_eq hspace.bitIndex
  have hready := (haccept.trans (acceptBit_last hlast)).trans (completeFrame_of_frameWord u.lf (buf_putBit_last hspace _))
  have hreport := hfeed'.reports hc (hready ▸ rfl)
  rw [hready] at hreport
  exact hreport.after_silent hsilent

/-- A Data frame without its stop mark: 66 silent steps, and the frame is reported. -/
theorem dataFrame_reports {a : Addr} {x : Byte} {t0 : Ts} {vs : List Interval} {s : State} {es : List (Bool × Ts)}
    (hstart : s.dec.st = .idle ∨ tFrame c < (durationOf c s.dec t0).toNat)
    (hfits : fitsSymbols c (dataSymbols c a x (~~~ x)) vs = true)
    (hfeed : Feeding c ((false, t0) :: (edgesFrom c t0 vs ++ es)) s) :
    ReportsFrame c es s 66 { dres := 1, kind := 1, address := a, command := x }
      { kind := .dataFrame, address := a, command := x, time := endTime c t0 vs, pending := true }
      (endTime c t0 vs) := by
  rw [dataSymbols_eq, ← wordBits_append _ 0 31 1, bitsSymbols_append] at hfits
  obtain ⟨leads, vs, rfl, hleads, hwordBits⟩ := fitsSymbols_append hfits
  obtain ⟨lead, leads, rfl, hlead, hleads⟩ := fitsSymbols_cons hleads
  obtain ⟨leadSpace, leads, rfl, hleadSpace, hleads⟩ := fitsSymbols_cons hleads
  obtain rfl := fitsSymbols_nil hleads
  obtain ⟨bits, vs, rfl, hbits, hlastBit⟩ := fitsSymbols_append hwordBits
  obtain ⟨mark, space, vs, rfl, hmark, hspace, hnil⟩ := fitsSymbols_bit hlastBit
  obtain rfl := fitsSymbols_nil hnil
  rw [edgesFrom_append, edgesFrom_append, List.append_assoc, List.append_assoc] at hfeed
  rw [endTime_append, endTime_append]
  obtain ⟨u, hsilent, hst, htime, hfeed⟩ := lead_silent hc hfeed hstart hlead
  have hdata := edgeTransition_leadSpace hc hn u.lf hst hleadSpace
  rw [htime] at hdata
  obtain ⟨v, hsilent', hdec, hfeed⟩ := hfeed.silent hc hdata
  have hat : AtBit (frameWord a x (~~~ x)) 0 _ v.dec := hdec ▸ atBit_startData _ rfl
  obtain ⟨w, hsilent'', hat, hfeed⟩ := bits_silent hc hn 31 (by decide) hat hbits hfeed
  have hreport := lastBit_reports hc hn hat hfeed hmark hspace
  exact hreport.after_silent ((hsilent.trans hsilent').trans hsilent'')

end

/-- Settles O29: the data symbols report the frame, and the stop mark ends it. -/
theorem everyWellFormedDataFrameIsDecoded : Obligations.EveryWellFormedDataFrameIsDecoded := by
  intro s a x t0 vs hc hn ht hstart hfits he hh hr
  have hfeed := feeding_edgeStream ht he hh hr
  obtain ⟨us, ws, rfl, hdata, hstop⟩ := fitsSymbols_append hfits
  obtain ⟨stop, ws, rfl, hmark, hnil⟩ := fitsSymbols_cons hstop
  obtain rfl := fitsSymbols_nil hnil
  have hlength : us.length = 66 := (fitsSymbols_length hdata).trans (length_dataSymbols s.cfg a x (~~~ x))
  rw [edgesFrom_append] at hfeed
  rw [List.take_left' hlength, endTime_append]
  exact reported_frame_answers hc hn (dataFrame_reports hc hn hstart hdata hfeed) hmark

end Sys2Proof.Machine
end
